-- ==== Sys2Proof/Word.lean ====
section
/-! DEFINITION. The widths of the Z80: 8-bit registers, cells and port data, 16-bit pairs, addresses and ports
(spec/00_scope.md rule R7). Arithmetic on both wraps, as `BitVec` arithmetic does (rules R10, R85). -/

namespace Sys2Proof

/-- An 8-bit register, a memory cell, an immediate byte, a byte of port data (rule R7). -/
abbrev Byte := BitVec 8

/-- A 16-bit register or pair, a memory address, a port address (rule R7). -/
abbrev Word := BitVec 16

end Sys2Proof
end

