-- ==== Sys2Proof/Config.lean ====
section
/-! DEFINITION. What is fixed for one machine and outside the CPU: the free values behind the spec's `draw_N()`
(spec/00_scope.md rule R13), the oracles of the devices (rule R8, `IoRead`, `MemMap`), and what a memory cell that
nothing has written holds. A free value is an `opaque` constant: nothing can be proved about what it is, so a claim
holds for every value it may have. -/

namespace Sys2Proof

/-- One access the platform sees: to the input/output space (spec/20_memory.md rule R81), or to memory where the
platform's `MemMap` has it notice the access (rules R80, R87). -/
inductive IoEvent where
  /-- `IoRead(port)` answered `value`. -/
  | portRead (port : Word) (value : Byte)
  /-- `IoWrite(port, value)`. -/
  | portWrite (port : Word) (value : Byte)
  /-- A memory-mapped device answered a read of `addr` with `value`. -/
  | memRead (addr : Word) (value : Byte)
  /-- A write of `value` to `addr` handed to the platform. -/
  | memWrite (addr : Word) (value : Byte)
  deriving DecidableEq, Repr

namespace Config

/-- The `n`-th draw of a run where the spec writes `draw_1()` (rule R13). DESIGN CHOICE: log entry 3. -/
opaque freeBit : Nat → Bool

/-- The `n`-th draw of a run where the spec writes `draw_8()` (rule R13). DESIGN CHOICE: log entry 3. -/
opaque freeByte : Nat → Byte

/-- The `n`-th draw of a run where the spec writes `draw_16()` (rule R13). DESIGN CHOICE: log entry 3. -/
opaque freeWord : Nat → Word

/-- `IoRead : port16 -> history -> byte` (rule R8): what a device answers at a port after the accesses listed, where
the state has no answer lined up. DESIGN CHOICE: log entry 4. -/
opaque portAnswer : Word → List IoEvent → Byte

/-- What a device mapped into memory answers to a read of an address after the accesses listed: an oracle value (rules
R80, R87, R96). DESIGN CHOICE: log entry 9. -/
opaque deviceByte : Word → List IoEvent → Byte

/-- What a RAM cell that nothing has written holds (spec/92_eei_decisions.md D21: the initial content is a
parameter). DESIGN CHOICE, unsafe: log entry 2. -/
def unlistedByte : Byte := 0x00#8

end Config

end Sys2Proof
end

