-- ==== Sys2Proof/Syntax.lean ====
section
/-! DEFINITION. The instructions: one constructor for each row of spec/opcode_table.json, with the operands its
fields select (spec/30_encoding.md rule R123). Meaning is the machine's alone. -/

namespace Sys2Proof

/-- Table `r8` (rule R123): the 8-bit registers an instruction can name. Code 6 is no register. -/
inductive R8 where
  | b | c | d | e | h | l | a
  deriving DecidableEq, Repr

/-- Table `rr` (rule R123): the pairs of the 16-bit loads and arithmetic. -/
inductive RR where
  | bc | de | hl | sp
  deriving DecidableEq, Repr

/-- Table `qq` (rule R123): the pairs of PUSH and POP. -/
inductive QQ where
  | bc | de | hl | af
  deriving DecidableEq, Repr

/-- Table `pp_ix` (rule R123): the pairs of `ADD IX,pp`. -/
inductive PPX where
  | bc | de | ix | sp
  deriving DecidableEq, Repr

/-- Table `pp_iy` (rule R123): the pairs of `ADD IY,pp`. -/
inductive PPY where
  | bc | de | iy | sp
  deriving DecidableEq, Repr

/-- Table `cc` (rules R40, R123): the eight conditions. -/
inductive Cond where
  | nz | z | nc | c | po | pe | p | m
  deriving DecidableEq, Repr

/-- Table `cc2` (rules R123, R503) has the first four conditions only. -/
def Cond.isRelative : Cond → Bool
  | .nz | .z | .nc | .c => true
  | .po | .pe | .p | .m => false

/-- The instructions. `n` is an 8-bit immediate, `nn` a 16-bit one, `d` the displacement byte of `(IX+d)` and
`(IY+d)`, `e` the relative-jump byte (rules R124 to R126), `b` a bit number; `RST` carries its target address. -/
inductive Instr where
  -- 8-bit loads (spec/40_load8.md)
  /-- `LD r,r'`, rule R200: `01rrrsss`. -/
  | ldRR (r s : R8)
  /-- `LD r,n`, rule R201: `00rrr110 nnnnnnnn`. -/
  | ldRN (r : R8) (n : Byte)
  /-- `LD r,(HL)`, rule R202: `01rrr110`. -/
  | ldRAtHl (r : R8)
  /-- `LD (HL),r`, rule R203: `01110sss`. -/
  | ldAtHlR (r : R8)
  /-- `LD (HL),n`, rule R204: `00110110 nnnnnnnn`. -/
  | ldAtHlN (n : Byte)
  /-- `LD r,(IX+d)`, rule R205: `11011101 01rrr110 dddddddd`. -/
  | ldRAtIxd (r : R8) (d : Byte)
  /-- `LD r,(IY+d)`, rule R206: `11111101 01rrr110 dddddddd`. -/
  | ldRAtIyd (r : R8) (d : Byte)
  /-- `LD (IX+d),r`, rule R207: `11011101 01110sss dddddddd`. -/
  | ldAtIxdR (d : Byte) (r : R8)
  /-- `LD (IY+d),r`, rule R208: `11111101 01110sss dddddddd`. -/
  | ldAtIydR (d : Byte) (r : R8)
  /-- `LD (IX+d),n`, rule R209: `11011101 00110110 dddddddd nnnnnnnn`. -/
  | ldAtIxdN (d n : Byte)
  /-- `LD (IY+d),n`, rule R210: `11111101 00110110 dddddddd nnnnnnnn`. -/
  | ldAtIydN (d n : Byte)
  /-- `LD A,(BC)`, rule R211: `00001010`. -/
  | ldAAtBc
  /-- `LD A,(DE)`, rule R212: `00011010`. -/
  | ldAAtDe
  /-- `LD A,(nn)`, rule R213: `00111010 llllllll hhhhhhhh`. -/
  | ldAAtNn (nn : Word)
  /-- `LD (BC),A`, rule R214: `00000010`. -/
  | ldAtBcA
  /-- `LD (DE),A`, rule R215: `00010010`. -/
  | ldAtDeA
  /-- `LD (nn),A`, rule R216: `00110010 llllllll hhhhhhhh`. -/
  | ldAtNnA (nn : Word)
  /-- `LD A,I`, rule R217: `11101101 01010111`. -/
  | ldAI
  /-- `LD A,R`, rule R218: `11101101 01011111`. -/
  | ldARefresh
  /-- `LD I,A`, rule R219: `11101101 01000111`. -/
  | ldIA
  /-- `LD R,A`, rule R220: `11101101 01001111`. -/
  | ldRefreshA
  -- 16-bit loads, PUSH and POP (spec/41_load16_stack.md)
  /-- `LD rr,nn`, rule R240: `00pp0001 llllllll hhhhhhhh`. -/
  | ldPairNn (p : RR) (nn : Word)
  /-- `LD IX,nn`, rule R241: `11011101 00100001 llllllll hhhhhhhh`. -/
  | ldIxNn (nn : Word)
  /-- `LD IY,nn`, rule R242: `11111101 00100001 llllllll hhhhhhhh`. -/
  | ldIyNn (nn : Word)
  /-- `LD HL,(nn)`, rule R243: `00101010 llllllll hhhhhhhh`. -/
  | ldHlAtNn (nn : Word)
  /-- `LD rr,(nn)`, rule R244: `11101101 01pp1011 llllllll hhhhhhhh`. -/
  | ldPairAtNn (p : RR) (nn : Word)
  /-- `LD IX,(nn)`, rule R245: `11011101 00101010 llllllll hhhhhhhh`. -/
  | ldIxAtNn (nn : Word)
  /-- `LD IY,(nn)`, rule R246: `11111101 00101010 llllllll hhhhhhhh`. -/
  | ldIyAtNn (nn : Word)
  /-- `LD (nn),HL`, rule R247: `00100010 llllllll hhhhhhhh`. -/
  | ldAtNnHl (nn : Word)
  /-- `LD (nn),rr`, rule R248: `11101101 01pp0011 llllllll hhhhhhhh`. -/
  | ldAtNnPair (nn : Word) (p : RR)
  /-- `LD (nn),IX`, rule R249: `11011101 00100010 llllllll hhhhhhhh`. -/
  | ldAtNnIx (nn : Word)
  /-- `LD (nn),IY`, rule R250: `11111101 00100010 llllllll hhhhhhhh`. -/
  | ldAtNnIy (nn : Word)
  /-- `LD SP,HL`, rule R251: `11111001`. -/
  | ldSpHl
  /-- `LD SP,IX`, rule R252: `11011101 11111001`. -/
  | ldSpIx
  /-- `LD SP,IY`, rule R253: `11111101 11111001`. -/
  | ldSpIy
  /-- `PUSH qq`, rule R254: `11qq0101`. -/
  | pushPair (q : QQ)
  /-- `PUSH IX`, rule R255: `11011101 11100101`. -/
  | pushIx
  /-- `PUSH IY`, rule R256: `11111101 11100101`. -/
  | pushIy
  /-- `POP qq`, rule R257: `11qq0001`. -/
  | popPair (q : QQ)
  /-- `POP IX`, rule R258: `11011101 11100001`. -/
  | popIx
  /-- `POP IY`, rule R259: `11111101 11100001`. -/
  | popIy
  -- Exchanges, block transfer and block search (spec/42_exchange_block.md)
  /-- `EX DE,HL`, rule R280: `11101011`. -/
  | exDeHl
  /-- `EX AF,AF'`, rule R281: `00001000`. -/
  | exAf
  /-- `EXX`, rule R282: `11011001`. -/
  | exx
  /-- `EX (SP),HL`, rule R283: `11100011`. -/
  | exAtSpHl
  /-- `EX (SP),IX`, rule R284: `11011101 11100011`. -/
  | exAtSpIx
  /-- `EX (SP),IY`, rule R285: `11111101 11100011`. -/
  | exAtSpIy
  /-- `LDI`, rule R286: `11101101 10100000`. -/
  | ldi
  /-- `LDIR`, rule R287: `11101101 10110000`. -/
  | ldir
  /-- `LDD`, rule R288: `11101101 10101000`. -/
  | ldd
  /-- `LDDR`, rule R289: `11101101 10111000`. -/
  | lddr
  /-- `CPI`, rule R290: `11101101 10100001`. -/
  | cpi
  /-- `CPIR`, rule R291: `11101101 10110001`. -/
  | cpir
  /-- `CPD`, rule R292: `11101101 10101001`. -/
  | cpd
  /-- `CPDR`, rule R293: `11101101 10111001`. -/
  | cpdr
  -- 8-bit arithmetic and logic (spec/43_alu8.md)
  /-- `ADC A,r`, rule R324: `10001sss`. -/
  | adcR (r : R8)
  /-- `ADC A,n`, rule R325: `11001110 nnnnnnnn`. -/
  | adcN (n : Byte)
  /-- `ADC A,(HL)`, rule R326: `10001110`. -/
  | adcAtHl
  /-- `ADC A,(IX+d)`, rule R327: `11011101 10001110 dddddddd`. -/
  | adcAtIxd (d : Byte)
  /-- `ADC A,(IY+d)`, rule R328: `11111101 10001110 dddddddd`. -/
  | adcAtIyd (d : Byte)
  /-- `ADD A,r`, rule R329: `10000sss`. -/
  | addR (r : R8)
  /-- `ADD A,n`, rule R330: `11000110 nnnnnnnn`. -/
  | addN (n : Byte)
  /-- `ADD A,(HL)`, rule R331: `10000110`. -/
  | addAtHl
  /-- `ADD A,(IX+d)`, rule R332: `11011101 10000110 dddddddd`. -/
  | addAtIxd (d : Byte)
  /-- `ADD A,(IY+d)`, rule R333: `11111101 10000110 dddddddd`. -/
  | addAtIyd (d : Byte)
  /-- `AND r`, rule R334: `10100sss`. -/
  | andR (r : R8)
  /-- `AND n`, rule R335: `11100110 nnnnnnnn`. -/
  | andN (n : Byte)
  /-- `AND (HL)`, rule R336: `10100110`. -/
  | andAtHl
  /-- `AND (IX+d)`, rule R337: `11011101 10100110 dddddddd`. -/
  | andAtIxd (d : Byte)
  /-- `AND (IY+d)`, rule R338: `11111101 10100110 dddddddd`. -/
  | andAtIyd (d : Byte)
  /-- `CP r`, rule R339: `10111sss`. -/
  | cpR (r : R8)
  /-- `CP n`, rule R340: `11111110 nnnnnnnn`. -/
  | cpN (n : Byte)
  /-- `CP (HL)`, rule R341: `10111110`. -/
  | cpAtHl
  /-- `CP (IX+d)`, rule R342: `11011101 10111110 dddddddd`. -/
  | cpAtIxd (d : Byte)
  /-- `CP (IY+d)`, rule R343: `11111101 10111110 dddddddd`. -/
  | cpAtIyd (d : Byte)
  /-- `OR r`, rule R344: `10110sss`. -/
  | orR (r : R8)
  /-- `OR n`, rule R345: `11110110 nnnnnnnn`. -/
  | orN (n : Byte)
  /-- `OR (HL)`, rule R346: `10110110`. -/
  | orAtHl
  /-- `OR (IX+d)`, rule R347: `11011101 10110110 dddddddd`. -/
  | orAtIxd (d : Byte)
  /-- `OR (IY+d)`, rule R348: `11111101 10110110 dddddddd`. -/
  | orAtIyd (d : Byte)
  /-- `SBC A,r`, rule R349: `10011sss`. -/
  | sbcR (r : R8)
  /-- `SBC A,n`, rule R350: `11011110 nnnnnnnn`. -/
  | sbcN (n : Byte)
  /-- `SBC A,(HL)`, rule R351: `10011110`. -/
  | sbcAtHl
  /-- `SBC A,(IX+d)`, rule R352: `11011101 10011110 dddddddd`. -/
  | sbcAtIxd (d : Byte)
  /-- `SBC A,(IY+d)`, rule R353: `11111101 10011110 dddddddd`. -/
  | sbcAtIyd (d : Byte)
  /-- `SUB A,r`, rule R354: `10010sss`. -/
  | subR (r : R8)
  /-- `SUB A,n`, rule R355: `11010110 nnnnnnnn`. -/
  | subN (n : Byte)
  /-- `SUB A,(HL)`, rule R356: `10010110`. -/
  | subAtHl
  /-- `SUB A,(IX+d)`, rule R357: `11011101 10010110 dddddddd`. -/
  | subAtIxd (d : Byte)
  /-- `SUB A,(IY+d)`, rule R358: `11111101 10010110 dddddddd`. -/
  | subAtIyd (d : Byte)
  /-- `XOR r`, rule R359: `10101sss`. -/
  | xorR (r : R8)
  /-- `XOR n`, rule R360: `11101110 nnnnnnnn`. -/
  | xorN (n : Byte)
  /-- `XOR (HL)`, rule R361: `10101110`. -/
  | xorAtHl
  /-- `XOR (IX+d)`, rule R362: `11011101 10101110 dddddddd`. -/
  | xorAtIxd (d : Byte)
  /-- `XOR (IY+d)`, rule R363: `11111101 10101110 dddddddd`. -/
  | xorAtIyd (d : Byte)
  /-- `INC r`, rule R364: `00rrr100`. -/
  | incR (r : R8)
  /-- `INC (HL)`, rule R365: `00110100`. -/
  | incAtHl
  /-- `INC (IX+d)`, rule R366: `11011101 00110100 dddddddd`. -/
  | incAtIxd (d : Byte)
  /-- `INC (IY+d)`, rule R367: `11111101 00110100 dddddddd`. -/
  | incAtIyd (d : Byte)
  /-- `DEC r`, rule R368: `00rrr101`. -/
  | decR (r : R8)
  /-- `DEC (HL)`, rule R369: `00110101`. -/
  | decAtHl
  /-- `DEC (IX+d)`, rule R370: `11011101 00110101 dddddddd`. -/
  | decAtIxd (d : Byte)
  /-- `DEC (IY+d)`, rule R371: `11111101 00110101 dddddddd`. -/
  | decAtIyd (d : Byte)
  -- General arithmetic and CPU control (spec/44_general_cpu_control.md)
  /-- `DAA`, rule R380: `00100111`. -/
  | daa
  /-- `CPL`, rule R381: `00101111`. -/
  | cpl
  /-- `NEG`, rule R382: `11101101 01000100`. -/
  | neg
  /-- `CCF`, rule R383: `00111111`. -/
  | ccf
  /-- `SCF`, rule R384: `00110111`. -/
  | scf
  /-- `NOP`, rule R385: `00000000`. -/
  | nop
  /-- `HALT`, rule R386: `01110110`. -/
  | halt
  /-- `DI`, rule R387: `11110011`. -/
  | di
  /-- `EI`, rule R388: `11111011`. -/
  | ei
  /-- `IM 0`, rule R389: `11101101 01000110`. -/
  | im0
  /-- `IM 1`, rule R390: `11101101 01010110`. -/
  | im1
  /-- `IM 2`, rule R391: `11101101 01011110`. -/
  | im2
  -- 16-bit arithmetic (spec/45_alu16.md)
  /-- `ADC HL,rr`, rule R402: `11101101 01pp1010`. -/
  | adcHlPair (p : RR)
  /-- `ADD HL,rr`, rule R403: `00pp1001`. -/
  | addHlPair (p : RR)
  /-- `ADD IX,pp`, rule R404: `11011101 00pp1001`. -/
  | addIxPair (p : PPX)
  /-- `ADD IY,pp`, rule R405: `11111101 00pp1001`. -/
  | addIyPair (p : PPY)
  /-- `SBC HL,rr`, rule R406: `11101101 01pp0010`. -/
  | sbcHlPair (p : RR)
  /-- `INC rr`, rule R407: `00pp0011`. -/
  | incPair (p : RR)
  /-- `INC IX`, rule R408: `11011101 00100011`. -/
  | incIx
  /-- `INC IY`, rule R409: `11111101 00100011`. -/
  | incIy
  /-- `DEC rr`, rule R410: `00pp1011`. -/
  | decPair (p : RR)
  /-- `DEC IX`, rule R411: `11011101 00101011`. -/
  | decIx
  /-- `DEC IY`, rule R412: `11111101 00101011`. -/
  | decIy
  -- Rotates and shifts (spec/46_rotate_shift.md)
  /-- `RLCA`, rule R424: `00000111`. -/
  | rlca
  /-- `RLA`, rule R425: `00010111`. -/
  | rla
  /-- `RRCA`, rule R426: `00001111`. -/
  | rrca
  /-- `RRA`, rule R427: `00011111`. -/
  | rra
  /-- `RL r`, rule R428: `11001011 00010rrr`. -/
  | rlR (r : R8)
  /-- `RL (HL)`, rule R429: `11001011 00010110`. -/
  | rlAtHl
  /-- `RL (IX+d)`, rule R430: `11011101 11001011 dddddddd 00010110`. -/
  | rlAtIxd (d : Byte)
  /-- `RL (IY+d)`, rule R431: `11111101 11001011 dddddddd 00010110`. -/
  | rlAtIyd (d : Byte)
  /-- `RLC r`, rule R432: `11001011 00000rrr`. -/
  | rlcR (r : R8)
  /-- `RLC (HL)`, rule R433: `11001011 00000110`. -/
  | rlcAtHl
  /-- `RLC (IX+d)`, rule R434: `11011101 11001011 dddddddd 00000110`. -/
  | rlcAtIxd (d : Byte)
  /-- `RLC (IY+d)`, rule R435: `11111101 11001011 dddddddd 00000110`. -/
  | rlcAtIyd (d : Byte)
  /-- `RR r`, rule R436: `11001011 00011rrr`. -/
  | rrR (r : R8)
  /-- `RR (HL)`, rule R437: `11001011 00011110`. -/
  | rrAtHl
  /-- `RR (IX+d)`, rule R438: `11011101 11001011 dddddddd 00011110`. -/
  | rrAtIxd (d : Byte)
  /-- `RR (IY+d)`, rule R439: `11111101 11001011 dddddddd 00011110`. -/
  | rrAtIyd (d : Byte)
  /-- `RRC r`, rule R440: `11001011 00001rrr`. -/
  | rrcR (r : R8)
  /-- `RRC (HL)`, rule R441: `11001011 00001110`. -/
  | rrcAtHl
  /-- `RRC (IX+d)`, rule R442: `11011101 11001011 dddddddd 00001110`. -/
  | rrcAtIxd (d : Byte)
  /-- `RRC (IY+d)`, rule R443: `11111101 11001011 dddddddd 00001110`. -/
  | rrcAtIyd (d : Byte)
  /-- `SLA r`, rule R444: `11001011 00100rrr`. -/
  | slaR (r : R8)
  /-- `SLA (HL)`, rule R445: `11001011 00100110`. -/
  | slaAtHl
  /-- `SLA (IX+d)`, rule R446: `11011101 11001011 dddddddd 00100110`. -/
  | slaAtIxd (d : Byte)
  /-- `SLA (IY+d)`, rule R447: `11111101 11001011 dddddddd 00100110`. -/
  | slaAtIyd (d : Byte)
  /-- `SRA r`, rule R448: `11001011 00101rrr`. -/
  | sraR (r : R8)
  /-- `SRA (HL)`, rule R449: `11001011 00101110`. -/
  | sraAtHl
  /-- `SRA (IX+d)`, rule R450: `11011101 11001011 dddddddd 00101110`. -/
  | sraAtIxd (d : Byte)
  /-- `SRA (IY+d)`, rule R451: `11111101 11001011 dddddddd 00101110`. -/
  | sraAtIyd (d : Byte)
  /-- `SRL r`, rule R452: `11001011 00111rrr`. -/
  | srlR (r : R8)
  /-- `SRL (HL)`, rule R453: `11001011 00111110`. -/
  | srlAtHl
  /-- `SRL (IX+d)`, rule R454: `11011101 11001011 dddddddd 00111110`. -/
  | srlAtIxd (d : Byte)
  /-- `SRL (IY+d)`, rule R455: `11111101 11001011 dddddddd 00111110`. -/
  | srlAtIyd (d : Byte)
  /-- `RLD`, rule R456: `11101101 01101111`. -/
  | rld
  /-- `RRD`, rule R457: `11101101 01100111`. -/
  | rrd
  -- Bit test, reset and set (spec/47_bit.md)
  /-- `BIT b,r`, rule R480: `11001011 01bbbrrr`. -/
  | bitR (b : BitVec 3) (r : R8)
  /-- `BIT b,(HL)`, rule R481: `11001011 01bbb110`. -/
  | bitAtHl (b : BitVec 3)
  /-- `BIT b,(IX+d)`, rule R482: `11011101 11001011 dddddddd 01bbb110`. -/
  | bitAtIxd (b : BitVec 3) (d : Byte)
  /-- `BIT b,(IY+d)`, rule R483: `11111101 11001011 dddddddd 01bbb110`. -/
  | bitAtIyd (b : BitVec 3) (d : Byte)
  /-- `RES b,r`, rule R484: `11001011 10bbbrrr`. -/
  | resR (b : BitVec 3) (r : R8)
  /-- `RES b,(HL)`, rule R485: `11001011 10bbb110`. -/
  | resAtHl (b : BitVec 3)
  /-- `RES b,(IX+d)`, rule R486: `11011101 11001011 dddddddd 10bbb110`. -/
  | resAtIxd (b : BitVec 3) (d : Byte)
  /-- `RES b,(IY+d)`, rule R487: `11111101 11001011 dddddddd 10bbb110`. -/
  | resAtIyd (b : BitVec 3) (d : Byte)
  /-- `SET b,r`, rule R488: `11001011 11bbbrrr`. -/
  | setR (b : BitVec 3) (r : R8)
  /-- `SET b,(HL)`, rule R489: `11001011 11bbb110`. -/
  | setAtHl (b : BitVec 3)
  /-- `SET b,(IX+d)`, rule R490: `11011101 11001011 dddddddd 11bbb110`. -/
  | setAtIxd (b : BitVec 3) (d : Byte)
  /-- `SET b,(IY+d)`, rule R491: `11111101 11001011 dddddddd 11bbb110`. -/
  | setAtIyd (b : BitVec 3) (d : Byte)
  -- Jumps, calls and returns (spec/48_jump_call_return.md)
  /-- `JP nn`, rule R500: `11000011 llllllll hhhhhhhh`. -/
  | jpNn (nn : Word)
  /-- `JP cc,nn`, rule R501: `11ccc010 llllllll hhhhhhhh`. -/
  | jpCondNn (cc : Cond) (nn : Word)
  /-- `JR e`, rule R502: `00011000 eeeeeeee`. -/
  | jrE (e : Byte)
  /-- `JR cc,e`, rule R503: `001cc000 eeeeeeee`. -/
  | jrCondE (cc : Cond) (e : Byte)
  /-- `JP (HL)`, rule R504: `11101001`. -/
  | jpHl
  /-- `JP (IX)`, rule R505: `11011101 11101001`. -/
  | jpIx
  /-- `JP (IY)`, rule R506: `11111101 11101001`. -/
  | jpIy
  /-- `DJNZ e`, rule R507: `00010000 eeeeeeee`. -/
  | djnz (e : Byte)
  /-- `CALL nn`, rule R508: `11001101 llllllll hhhhhhhh`. -/
  | callNn (nn : Word)
  /-- `CALL cc,nn`, rule R509: `11ccc100 llllllll hhhhhhhh`. -/
  | callCondNn (cc : Cond) (nn : Word)
  /-- `RET`, rule R510: `11001001`. -/
  | ret
  /-- `RET cc`, rule R511: `11ccc000`. -/
  | retCond (cc : Cond)
  /-- `RETI`, rule R512: `11101101 01001101`. -/
  | reti
  /-- `RETN`, rule R513: `11101101 01000101`. -/
  | retn
  /-- `RST p`, rule R514: `11ttt111`. -/
  | rst (p : Word)
  -- Input and output (spec/49_io.md)
  /-- `IN A,(n)`, rule R540: `11011011 nnnnnnnn`. -/
  | inAN (n : Byte)
  /-- `IN r,(C)`, rule R541: `11101101 01rrr000`. -/
  | inRC (r : R8)
  /-- `INI`, rule R542: `11101101 10100010`. -/
  | ini
  /-- `INIR`, rule R543: `11101101 10110010`. -/
  | inir
  /-- `IND`, rule R544: `11101101 10101010`. -/
  | ind
  /-- `INDR`, rule R545: `11101101 10111010`. -/
  | indr
  /-- `OUT (n),A`, rule R546: `11010011 nnnnnnnn`. -/
  | outNA (n : Byte)
  /-- `OUT (C),r`, rule R547: `11101101 01rrr001`. -/
  | outCR (r : R8)
  /-- `OUTI`, rule R548: `11101101 10100011`. -/
  | outi
  /-- `OTIR`, rule R549: `11101101 10110011`. -/
  | otir
  /-- `OUTD`, rule R550: `11101101 10101011`. -/
  | outd
  /-- `OTDR`, rule R551: `11101101 10111011`. -/
  | otdr
  deriving DecidableEq, Repr

end Sys2Proof
end

