-- ==== Sys2Proof/WellFormed.lean ====
section
/-! DEFINITION. The instructions an encoding exists for. Two constructors carry more than their field can hold:
`JR cc,e` has four conditions (spec/48_jump_call_return.md rule R503), `RST p` eight targets (rule R514). -/

namespace Sys2Proof

/-- A restart target: 0000H, 0008H, …, 0038H (rules R514, R123 table `rst`). -/
def isRestartTarget (p : Word) : Bool := p &&& 0x0038#16 == p

/-- The instruction has an encoding. -/
def WellFormed : Instr → Bool
  | .jrCondE cc _ => cc.isRelative
  | .rst p => isRestartTarget p
  | _ => true

end Sys2Proof
end

