-- ==== Sys2Proof/Decode.lean ====
section
/-! DEFINITION. From bytes to instructions and back, written from spec/30_encoding.md: the decoder follows the
algorithm of rule R127 and the page tables of rules R128 to R132, and rejects by name what rule R133 lists; the
encoder writes the byte patterns of spec/opcode_table.json. The byte helpers the machine shares stand here too. -/

namespace Sys2Proof

/-! ## Bytes and words (rules R31, R82, R124) -/

/-- `{hi, lo}` (rule R9). -/
def wordOf (hi lo : Byte) : Word := hi ++ lo

/-- Bits 15 to 8. -/
def hiByte (w : Word) : Byte := w.extractLsb' 8 8

/-- Bits 7 to 0. -/
def loByte (w : Word) : Byte := w.extractLsb' 0 8

/-- `sext_16(d)` (rule R10). -/
def sext16 (d : Byte) : Word := d.signExtend 16

/-! ## The groups of an opcode byte (rule R122) -/

/-- An opcode byte from its bit groups 7:6, 5:3 and 2:0. -/
def opByte (x : BitVec 2) (y z : BitVec 3) : Byte := x ++ y ++ z

/-- An opcode byte with a pair field: bits 7:6, the field in 5:4, bits 3:0. -/
def pairByte (x p : BitVec 2) (q : BitVec 4) : Byte := x ++ p ++ q

/-- Bits 7:6. -/
def opX (b : Byte) : BitVec 2 := b.extractLsb' 6 2

/-- Bits 5:3. -/
def opY (b : Byte) : BitVec 3 := b.extractLsb' 3 3

/-- Bits 2:0. -/
def opZ (b : Byte) : BitVec 3 := b.extractLsb' 0 3

/-- Bits 5:4, a pair field. -/
def opP (b : Byte) : BitVec 2 := b.extractLsb' 4 2

/-! ## Field tables (rule R123) -/

/-- Table `r8`. -/
def R8.code : R8 → BitVec 3
  | .b => 0 | .c => 1 | .d => 2 | .e => 3 | .h => 4 | .l => 5 | .a => 7

/-- Table `r8` read backwards; code 6 is no register. -/
def R8.ofCode (v : BitVec 3) : Option R8 :=
  match v.toNat with
  | 0 => some .b | 1 => some .c | 2 => some .d | 3 => some .e
  | 4 => some .h | 5 => some .l | 7 => some .a | _ => none

/-- Table `rr`. -/
def RR.code : RR → BitVec 2
  | .bc => 0 | .de => 1 | .hl => 2 | .sp => 3

/-- Table `rr` read backwards: the last code is 3. -/
def RR.ofCode (v : BitVec 2) : RR :=
  match v.toNat with
  | 0 => .bc | 1 => .de | 2 => .hl | _ => .sp

/-- Table `qq`. -/
def QQ.code : QQ → BitVec 2
  | .bc => 0 | .de => 1 | .hl => 2 | .af => 3

/-- Table `qq` read backwards: the last code is 3. -/
def QQ.ofCode (v : BitVec 2) : QQ :=
  match v.toNat with
  | 0 => .bc | 1 => .de | 2 => .hl | _ => .af

/-- Table `pp_ix`. -/
def PPX.code : PPX → BitVec 2
  | .bc => 0 | .de => 1 | .ix => 2 | .sp => 3

/-- Table `pp_ix` read backwards: the last code is 3. -/
def PPX.ofCode (v : BitVec 2) : PPX :=
  match v.toNat with
  | 0 => .bc | 1 => .de | 2 => .ix | _ => .sp

/-- Table `pp_iy`. -/
def PPY.code : PPY → BitVec 2
  | .bc => 0 | .de => 1 | .iy => 2 | .sp => 3

/-- Table `pp_iy` read backwards: the last code is 3. -/
def PPY.ofCode (v : BitVec 2) : PPY :=
  match v.toNat with
  | 0 => .bc | 1 => .de | 2 => .iy | _ => .sp

/-- Table `cc`; its first four codes are table `cc2`. -/
def Cond.code : Cond → BitVec 3
  | .nz => 0 | .z => 1 | .nc => 2 | .c => 3 | .po => 4 | .pe => 5 | .p => 6 | .m => 7

/-- Table `cc` read backwards: the last code is 7. -/
def Cond.ofCode (v : BitVec 3) : Cond :=
  match v.toNat with
  | 0 => .nz | 1 => .z | 2 => .nc | 3 => .c | 4 => .po | 5 => .pe | 6 => .p | _ => .m

/-- Table `rst`: the target is the field times 8. -/
def restartTarget (t : BitVec 3) : Word := (0#10 ++ t) ++ 0#3

/-- The field of a restart target: target / 8. -/
def restartField (p : Word) : BitVec 3 := p.extractLsb' 3 3

/-! ## Decoding (rule R127) -/

/-- Which index register a DDH or FDH prefix selects (rule R122, "XY"). -/
inductive XY where
  | ix | iy
  deriving DecidableEq, Repr

/-- The prefix byte of an index register (rule R121). -/
def XY.prefixByte : XY → Byte
  | .ix => 0xDD | .iy => 0xFD

/-- The IX form or the IY form of an instruction (rule R131: the two pages are the same with IX and IY exchanged). -/
def XY.pick {α : Type} : XY → α → α → α
  | .ix, forIx, _ => forIx
  | .iy, _, forIy => forIy

/-- The page an opcode byte is looked up in (rules R128 to R132). -/
inductive Page where
  | main | cb | ed | index (xy : XY) | indexBit (xy : XY)
  deriving DecidableEq, Repr

/-- Why some bytes are no instruction. -/
inductive DecodeError where
  /-- The opcode byte has no entry in its page (rule R133). -/
  | unlisted (page : Page) (opcode : Byte)
  /-- The bytes end before the instruction does. -/
  | truncated
  deriving DecidableEq, Repr

/-- An instruction with the bytes after it, or the reason there is none. -/
abbrev Decoded := Except DecodeError (Instr × List Byte)

/-- An instruction whose bytes are all read. -/
def done (i : Instr) (rest : List Byte) : Decoded := .ok (i, rest)

/-- The instruction with one operand byte: n, e or d (rules R124 to R126). -/
def withByte (f : Byte → Instr) : List Byte → Decoded
  | n :: rest => .ok (f n, rest)
  | [] => .error .truncated

/-- The instruction with a 16-bit immediate, low byte first (rule R124). -/
def withWord (f : Word → Instr) : List Byte → Decoded
  | l :: h :: rest => .ok (f (wordOf h l), rest)
  | _ => .error .truncated

/-- The instruction of format F11: displacement, then immediate (rule R122). -/
def withTwoBytes (f : Byte → Byte → Instr) : List Byte → Decoded
  | d :: n :: rest => .ok (f d n, rest)
  | _ => .error .truncated

/-- What a register field selects: the form with a register, or the form that code 6 stands for. -/
def byR8 (v : BitVec 3) (onReg : R8 → Decoded) (onSix : Decoded) : Decoded :=
  match R8.ofCode v with
  | some r => onReg r
  | none => onSix

/-- The accumulator operation of bits 5:3 (rule R123) from its eight candidates. -/
def aluPick {α : Type} (y : BitVec 3) (add adc sub sbc and xor or cp : α) : α :=
  match y.toNat with
  | 0 => add | 1 => adc | 2 => sub | 3 => sbc | 4 => and | 5 => xor | 6 => or | _ => cp

/-- The rotate or shift of bits 5:3 (rule R123) from its seven candidates; 6 is not listed. -/
def rotPick (y : BitVec 3) (unlisted rlc rrc rl rr sla sra srl : Decoded) : Decoded :=
  match y.toNat with
  | 0 => rlc | 1 => rrc | 2 => rl | 3 => rr | 4 => sla | 5 => sra | 7 => srl | _ => unlisted

/-- CB page (rule R129). -/
def decodeCB (op : Byte) (rest : List Byte) : Decoded :=
  let y := opY op
  match (opX op).toNat with
  | 0 => byR8 (opZ op)
      (fun r => rotPick y (.error (.unlisted .cb op)) (done (.rlcR r) rest) (done (.rrcR r) rest)
        (done (.rlR r) rest) (done (.rrR r) rest) (done (.slaR r) rest) (done (.sraR r) rest) (done (.srlR r) rest))
      (rotPick y (.error (.unlisted .cb op)) (done .rlcAtHl rest) (done .rrcAtHl rest)
        (done .rlAtHl rest) (done .rrAtHl rest) (done .slaAtHl rest) (done .sraAtHl rest) (done .srlAtHl rest))
  | 1 => byR8 (opZ op) (fun r => done (.bitR y r) rest) (done (.bitAtHl y) rest)
  | 2 => byR8 (opZ op) (fun r => done (.resR y r) rest) (done (.resAtHl y) rest)
  | _ => byR8 (opZ op) (fun r => done (.setR y r) rest) (done (.setAtHl y) rest)

/-- ED page (rule R130). -/
def decodeED (op : Byte) (rest : List Byte) : Decoded :=
  let unlisted : Decoded := .error (.unlisted .ed op)
  let p := RR.ofCode (opP op)
  match (opX op).toNat, (opZ op).toNat, (opY op).toNat with
  | 1, 0, _ => byR8 (opY op) (fun r => done (.inRC r) rest) unlisted
  | 1, 1, _ => byR8 (opY op) (fun r => done (.outCR r) rest) unlisted
  | 1, 2, y => if y % 2 = 0 then done (.sbcHlPair p) rest else done (.adcHlPair p) rest
  | 1, 3, y => if y % 2 = 0 then withWord (.ldAtNnPair · p) rest else withWord (.ldPairAtNn p) rest
  | 1, 4, 0 => done .neg rest
  | 1, 5, 0 => done .retn rest
  | 1, 5, 1 => done .reti rest
  | 1, 6, 0 => done .im0 rest
  | 1, 6, 2 => done .im1 rest
  | 1, 6, 3 => done .im2 rest
  | 1, 7, 0 => done .ldIA rest
  | 1, 7, 1 => done .ldRefreshA rest
  | 1, 7, 2 => done .ldAI rest
  | 1, 7, 3 => done .ldARefresh rest
  | 1, 7, 4 => done .rrd rest
  | 1, 7, 5 => done .rld rest
  | 2, 0, 4 => done .ldi rest
  | 2, 0, 5 => done .ldd rest
  | 2, 0, 6 => done .ldir rest
  | 2, 0, 7 => done .lddr rest
  | 2, 1, 4 => done .cpi rest
  | 2, 1, 5 => done .cpd rest
  | 2, 1, 6 => done .cpir rest
  | 2, 1, 7 => done .cpdr rest
  | 2, 2, 4 => done .ini rest
  | 2, 2, 5 => done .ind rest
  | 2, 2, 6 => done .inir rest
  | 2, 2, 7 => done .indr rest
  | 2, 3, 4 => done .outi rest
  | 2, 3, 5 => done .outd rest
  | 2, 3, 6 => done .otir rest
  | 2, 3, 7 => done .otdr rest
  | _, _, _ => unlisted

/-- Indexed bit page (rule R132): the displacement is read before the opcode byte. -/
def decodeIndexBit (xy : XY) (d op : Byte) (rest : List Byte) : Decoded :=
  let unlisted : Decoded := .error (.unlisted (.indexBit xy) op)
  let y := opY op
  match (opX op).toNat, (opZ op).toNat with
  | 0, 6 => rotPick y unlisted
      (done (xy.pick (.rlcAtIxd d) (.rlcAtIyd d)) rest) (done (xy.pick (.rrcAtIxd d) (.rrcAtIyd d)) rest)
      (done (xy.pick (.rlAtIxd d) (.rlAtIyd d)) rest) (done (xy.pick (.rrAtIxd d) (.rrAtIyd d)) rest)
      (done (xy.pick (.slaAtIxd d) (.slaAtIyd d)) rest) (done (xy.pick (.sraAtIxd d) (.sraAtIyd d)) rest)
      (done (xy.pick (.srlAtIxd d) (.srlAtIyd d)) rest)
  | 1, 6 => done (xy.pick (.bitAtIxd y d) (.bitAtIyd y d)) rest
  | 2, 6 => done (xy.pick (.resAtIxd y d) (.resAtIyd y d)) rest
  | 3, 6 => done (xy.pick (.setAtIxd y d) (.setAtIyd y d)) rest
  | _, _ => unlisted

/-- Index page (rule R131). -/
def decodeIndex (xy : XY) (op : Byte) (rest : List Byte) : Decoded :=
  let unlisted : Decoded := .error (.unlisted (.index xy) op)
  match (opX op).toNat, (opY op).toNat, (opZ op).toNat with
  | 0, 4, 1 => withWord (xy.pick .ldIxNn .ldIyNn) rest
  | 0, y, 1 => if y % 2 = 0 then unlisted else
      done (xy.pick (.addIxPair (PPX.ofCode (opP op))) (.addIyPair (PPY.ofCode (opP op)))) rest
  | 0, 4, 2 => withWord (xy.pick .ldAtNnIx .ldAtNnIy) rest
  | 0, 5, 2 => withWord (xy.pick .ldIxAtNn .ldIyAtNn) rest
  | 0, 4, 3 => done (xy.pick .incIx .incIy) rest
  | 0, 5, 3 => done (xy.pick .decIx .decIy) rest
  | 0, 6, 4 => withByte (xy.pick .incAtIxd .incAtIyd) rest
  | 0, 6, 5 => withByte (xy.pick .decAtIxd .decAtIyd) rest
  | 0, 6, 6 => withTwoBytes (xy.pick .ldAtIxdN .ldAtIydN) rest
  | 1, 6, _ => byR8 (opZ op) (fun r => withByte (xy.pick (.ldAtIxdR · r) (.ldAtIydR · r)) rest) unlisted
  | 1, _, 6 => byR8 (opY op) (fun r => withByte (xy.pick (.ldRAtIxd r) (.ldRAtIyd r)) rest) unlisted
  | 2, _, 6 => withByte (xy.pick
      (aluPick (opY op) .addAtIxd .adcAtIxd .subAtIxd .sbcAtIxd .andAtIxd .xorAtIxd .orAtIxd .cpAtIxd)
      (aluPick (opY op) .addAtIyd .adcAtIyd .subAtIyd .sbcAtIyd .andAtIyd .xorAtIyd .orAtIyd .cpAtIyd)) rest
  | 3, 4, 1 => done (xy.pick .popIx .popIy) rest
  | 3, 4, 3 => done (xy.pick .exAtSpIx .exAtSpIy) rest
  | 3, 4, 5 => done (xy.pick .pushIx .pushIy) rest
  | 3, 5, 1 => done (xy.pick .jpIx .jpIy) rest
  | 3, 7, 1 => done (xy.pick .ldSpIx .ldSpIy) rest
  | _, _, _ => unlisted

/-- The page a DDH or FDH prefix leads to (rule R127): a second byte CBH leads on to the indexed bit page. -/
def decodeAfterXY (xy : XY) : List Byte → Decoded
  | [] => .error .truncated
  | op :: rest =>
    if op = 0xCB then
      match rest with
      | d :: op' :: rest' => decodeIndexBit xy d op' rest'
      | _ => .error .truncated
    else decodeIndex xy op rest

/-- The opcode byte that follows a CBH or EDH prefix. -/
def decodeAfter (page : Byte → List Byte → Decoded) : List Byte → Decoded
  | [] => .error .truncated
  | op :: rest => page op rest

/-- Main page, opcodes 00H to 3FH (rule R128). -/
def decodeMain0 (op : Byte) (rest : List Byte) : Decoded :=
  let unlisted : Decoded := .error (.unlisted .main op)
  let p := RR.ofCode (opP op)
  match (opZ op).toNat, (opY op).toNat with
  | 0, 0 => done .nop rest
  | 0, 1 => done .exAf rest
  | 0, 2 => withByte .djnz rest
  | 0, 3 => withByte .jrE rest
  | 0, 4 => withByte (.jrCondE .nz) rest
  | 0, 5 => withByte (.jrCondE .z) rest
  | 0, 6 => withByte (.jrCondE .nc) rest
  | 0, 7 => withByte (.jrCondE .c) rest
  | 1, y => if y % 2 = 0 then withWord (.ldPairNn p) rest else done (.addHlPair p) rest
  | 2, 0 => done .ldAtBcA rest
  | 2, 1 => done .ldAAtBc rest
  | 2, 2 => done .ldAtDeA rest
  | 2, 3 => done .ldAAtDe rest
  | 2, 4 => withWord .ldAtNnHl rest
  | 2, 5 => withWord .ldHlAtNn rest
  | 2, 6 => withWord .ldAtNnA rest
  | 2, 7 => withWord .ldAAtNn rest
  | 3, y => if y % 2 = 0 then done (.incPair p) rest else done (.decPair p) rest
  | 4, _ => byR8 (opY op) (fun r => done (.incR r) rest) (done .incAtHl rest)
  | 5, _ => byR8 (opY op) (fun r => done (.decR r) rest) (done .decAtHl rest)
  | 6, _ => byR8 (opY op) (fun r => withByte (.ldRN r) rest) (withByte .ldAtHlN rest)
  | 7, 0 => done .rlca rest
  | 7, 1 => done .rrca rest
  | 7, 2 => done .rla rest
  | 7, 3 => done .rra rest
  | 7, 4 => done .daa rest
  | 7, 5 => done .cpl rest
  | 7, 6 => done .scf rest
  | 7, 7 => done .ccf rest
  | _, _ => unlisted

/-- Main page, opcodes C0H to FFH (rule R128), the four prefixes among them. -/
def decodeMain3 (op : Byte) (rest : List Byte) : Decoded :=
  let unlisted : Decoded := .error (.unlisted .main op)
  let cc := Cond.ofCode (opY op)
  match (opZ op).toNat, (opY op).toNat with
  | 0, _ => done (.retCond cc) rest
  | 1, 1 => done .ret rest
  | 1, 3 => done .exx rest
  | 1, 5 => done .jpHl rest
  | 1, 7 => done .ldSpHl rest
  | 1, _ => done (.popPair (QQ.ofCode (opP op))) rest
  | 2, _ => withWord (.jpCondNn cc) rest
  | 3, 0 => withWord .jpNn rest
  | 3, 1 => decodeAfter decodeCB rest
  | 3, 2 => withByte .outNA rest
  | 3, 3 => withByte .inAN rest
  | 3, 4 => done .exAtSpHl rest
  | 3, 5 => done .exDeHl rest
  | 3, 6 => done .di rest
  | 3, 7 => done .ei rest
  | 4, _ => withWord (.callCondNn cc) rest
  | 5, 1 => withWord .callNn rest
  | 5, 3 => decodeAfterXY .ix rest
  | 5, 5 => decodeAfter decodeED rest
  | 5, 7 => decodeAfterXY .iy rest
  | 5, _ => done (.pushPair (QQ.ofCode (opP op))) rest
  | 6, _ => withByte (aluPick (opY op) .addN .adcN .subN .sbcN .andN .xorN .orN .cpN) rest
  | 7, _ => done (.rst (restartTarget (opY op))) rest
  | _, _ => unlisted

/-- Main page, opcodes 40H to 7FH (rule R128): the register loads, and `HALT` where both fields are 6. -/
def decodeMain1 (op : Byte) (rest : List Byte) : Decoded :=
  byR8 (opY op)
    (fun r => byR8 (opZ op) (fun s => done (.ldRR r s) rest) (done (.ldRAtHl r) rest))
    (byR8 (opZ op) (fun s => done (.ldAtHlR s) rest) (done .halt rest))

/-- Main page, opcodes 80H to BFH (rule R128): the accumulator operations. -/
def decodeMain2 (op : Byte) (rest : List Byte) : Decoded :=
  byR8 (opZ op)
    (fun r => done (aluPick (opY op) (.addR r) (.adcR r) (.subR r) (.sbcR r) (.andR r) (.xorR r) (.orR r) (.cpR r)) rest)
    (done (aluPick (opY op) .addAtHl .adcAtHl .subAtHl .sbcAtHl .andAtHl .xorAtHl .orAtHl .cpAtHl) rest)

/-- Main page (rule R128). -/
def decodeMain (op : Byte) (rest : List Byte) : Decoded :=
  match (opX op).toNat with
  | 0 => decodeMain0 op rest
  | 1 => decodeMain1 op rest
  | 2 => decodeMain2 op rest
  | _ => decodeMain3 op rest

/-- The instruction the bytes begin with, and the bytes after it (rule R127). -/
def decode : List Byte → Decoded
  | [] => .error .truncated
  | op :: rest => decodeMain op rest

/-! ## Encoding (the patterns of spec/opcode_table.json) -/

/-- The bytes of an instruction, in memory order (rule R121). -/
def encode : Instr → List Byte
  | .ldRR r s => [opByte 1 r.code s.code]
  | .ldRN r n => [opByte 0 r.code 6, n]
  | .ldRAtHl r => [opByte 1 r.code 6]
  | .ldAtHlR r => [opByte 1 6 r.code]
  | .ldAtHlN n => [0x36, n]
  | .ldRAtIxd r d => [0xDD, opByte 1 r.code 6, d]
  | .ldRAtIyd r d => [0xFD, opByte 1 r.code 6, d]
  | .ldAtIxdR d r => [0xDD, opByte 1 6 r.code, d]
  | .ldAtIydR d r => [0xFD, opByte 1 6 r.code, d]
  | .ldAtIxdN d n => [0xDD, 0x36, d, n]
  | .ldAtIydN d n => [0xFD, 0x36, d, n]
  | .ldAAtBc => [0x0A]
  | .ldAAtDe => [0x1A]
  | .ldAAtNn nn => [0x3A, loByte nn, hiByte nn]
  | .ldAtBcA => [0x02]
  | .ldAtDeA => [0x12]
  | .ldAtNnA nn => [0x32, loByte nn, hiByte nn]
  | .ldAI => [0xED, 0x57]
  | .ldARefresh => [0xED, 0x5F]
  | .ldIA => [0xED, 0x47]
  | .ldRefreshA => [0xED, 0x4F]
  | .ldPairNn p nn => [pairByte 0 p.code 0x1, loByte nn, hiByte nn]
  | .ldIxNn nn => [0xDD, 0x21, loByte nn, hiByte nn]
  | .ldIyNn nn => [0xFD, 0x21, loByte nn, hiByte nn]
  | .ldHlAtNn nn => [0x2A, loByte nn, hiByte nn]
  | .ldPairAtNn p nn => [0xED, pairByte 1 p.code 0xB, loByte nn, hiByte nn]
  | .ldIxAtNn nn => [0xDD, 0x2A, loByte nn, hiByte nn]
  | .ldIyAtNn nn => [0xFD, 0x2A, loByte nn, hiByte nn]
  | .ldAtNnHl nn => [0x22, loByte nn, hiByte nn]
  | .ldAtNnPair nn p => [0xED, pairByte 1 p.code 0x3, loByte nn, hiByte nn]
  | .ldAtNnIx nn => [0xDD, 0x22, loByte nn, hiByte nn]
  | .ldAtNnIy nn => [0xFD, 0x22, loByte nn, hiByte nn]
  | .ldSpHl => [0xF9]
  | .ldSpIx => [0xDD, 0xF9]
  | .ldSpIy => [0xFD, 0xF9]
  | .pushPair q => [pairByte 3 q.code 0x5]
  | .pushIx => [0xDD, 0xE5]
  | .pushIy => [0xFD, 0xE5]
  | .popPair q => [pairByte 3 q.code 0x1]
  | .popIx => [0xDD, 0xE1]
  | .popIy => [0xFD, 0xE1]
  | .exDeHl => [0xEB]
  | .exAf => [0x08]
  | .exx => [0xD9]
  | .exAtSpHl => [0xE3]
  | .exAtSpIx => [0xDD, 0xE3]
  | .exAtSpIy => [0xFD, 0xE3]
  | .ldi => [0xED, 0xA0]
  | .ldir => [0xED, 0xB0]
  | .ldd => [0xED, 0xA8]
  | .lddr => [0xED, 0xB8]
  | .cpi => [0xED, 0xA1]
  | .cpir => [0xED, 0xB1]
  | .cpd => [0xED, 0xA9]
  | .cpdr => [0xED, 0xB9]
  | .adcR r => [opByte 2 1 r.code]
  | .adcN n => [0xCE, n]
  | .adcAtHl => [0x8E]
  | .adcAtIxd d => [0xDD, 0x8E, d]
  | .adcAtIyd d => [0xFD, 0x8E, d]
  | .addR r => [opByte 2 0 r.code]
  | .addN n => [0xC6, n]
  | .addAtHl => [0x86]
  | .addAtIxd d => [0xDD, 0x86, d]
  | .addAtIyd d => [0xFD, 0x86, d]
  | .andR r => [opByte 2 4 r.code]
  | .andN n => [0xE6, n]
  | .andAtHl => [0xA6]
  | .andAtIxd d => [0xDD, 0xA6, d]
  | .andAtIyd d => [0xFD, 0xA6, d]
  | .cpR r => [opByte 2 7 r.code]
  | .cpN n => [0xFE, n]
  | .cpAtHl => [0xBE]
  | .cpAtIxd d => [0xDD, 0xBE, d]
  | .cpAtIyd d => [0xFD, 0xBE, d]
  | .orR r => [opByte 2 6 r.code]
  | .orN n => [0xF6, n]
  | .orAtHl => [0xB6]
  | .orAtIxd d => [0xDD, 0xB6, d]
  | .orAtIyd d => [0xFD, 0xB6, d]
  | .sbcR r => [opByte 2 3 r.code]
  | .sbcN n => [0xDE, n]
  | .sbcAtHl => [0x9E]
  | .sbcAtIxd d => [0xDD, 0x9E, d]
  | .sbcAtIyd d => [0xFD, 0x9E, d]
  | .subR r => [opByte 2 2 r.code]
  | .subN n => [0xD6, n]
  | .subAtHl => [0x96]
  | .subAtIxd d => [0xDD, 0x96, d]
  | .subAtIyd d => [0xFD, 0x96, d]
  | .xorR r => [opByte 2 5 r.code]
  | .xorN n => [0xEE, n]
  | .xorAtHl => [0xAE]
  | .xorAtIxd d => [0xDD, 0xAE, d]
  | .xorAtIyd d => [0xFD, 0xAE, d]
  | .incR r => [opByte 0 r.code 4]
  | .incAtHl => [0x34]
  | .incAtIxd d => [0xDD, 0x34, d]
  | .incAtIyd d => [0xFD, 0x34, d]
  | .decR r => [opByte 0 r.code 5]
  | .decAtHl => [0x35]
  | .decAtIxd d => [0xDD, 0x35, d]
  | .decAtIyd d => [0xFD, 0x35, d]
  | .daa => [0x27]
  | .cpl => [0x2F]
  | .neg => [0xED, 0x44]
  | .ccf => [0x3F]
  | .scf => [0x37]
  | .nop => [0x00]
  | .halt => [0x76]
  | .di => [0xF3]
  | .ei => [0xFB]
  | .im0 => [0xED, 0x46]
  | .im1 => [0xED, 0x56]
  | .im2 => [0xED, 0x5E]
  | .adcHlPair p => [0xED, pairByte 1 p.code 0xA]
  | .addHlPair p => [pairByte 0 p.code 0x9]
  | .addIxPair p => [0xDD, pairByte 0 p.code 0x9]
  | .addIyPair p => [0xFD, pairByte 0 p.code 0x9]
  | .sbcHlPair p => [0xED, pairByte 1 p.code 0x2]
  | .incPair p => [pairByte 0 p.code 0x3]
  | .incIx => [0xDD, 0x23]
  | .incIy => [0xFD, 0x23]
  | .decPair p => [pairByte 0 p.code 0xB]
  | .decIx => [0xDD, 0x2B]
  | .decIy => [0xFD, 0x2B]
  | .rlca => [0x07]
  | .rla => [0x17]
  | .rrca => [0x0F]
  | .rra => [0x1F]
  | .rlR r => [0xCB, opByte 0 2 r.code]
  | .rlAtHl => [0xCB, 0x16]
  | .rlAtIxd d => [0xDD, 0xCB, d, 0x16]
  | .rlAtIyd d => [0xFD, 0xCB, d, 0x16]
  | .rlcR r => [0xCB, opByte 0 0 r.code]
  | .rlcAtHl => [0xCB, 0x06]
  | .rlcAtIxd d => [0xDD, 0xCB, d, 0x06]
  | .rlcAtIyd d => [0xFD, 0xCB, d, 0x06]
  | .rrR r => [0xCB, opByte 0 3 r.code]
  | .rrAtHl => [0xCB, 0x1E]
  | .rrAtIxd d => [0xDD, 0xCB, d, 0x1E]
  | .rrAtIyd d => [0xFD, 0xCB, d, 0x1E]
  | .rrcR r => [0xCB, opByte 0 1 r.code]
  | .rrcAtHl => [0xCB, 0x0E]
  | .rrcAtIxd d => [0xDD, 0xCB, d, 0x0E]
  | .rrcAtIyd d => [0xFD, 0xCB, d, 0x0E]
  | .slaR r => [0xCB, opByte 0 4 r.code]
  | .slaAtHl => [0xCB, 0x26]
  | .slaAtIxd d => [0xDD, 0xCB, d, 0x26]
  | .slaAtIyd d => [0xFD, 0xCB, d, 0x26]
  | .sraR r => [0xCB, opByte 0 5 r.code]
  | .sraAtHl => [0xCB, 0x2E]
  | .sraAtIxd d => [0xDD, 0xCB, d, 0x2E]
  | .sraAtIyd d => [0xFD, 0xCB, d, 0x2E]
  | .srlR r => [0xCB, opByte 0 7 r.code]
  | .srlAtHl => [0xCB, 0x3E]
  | .srlAtIxd d => [0xDD, 0xCB, d, 0x3E]
  | .srlAtIyd d => [0xFD, 0xCB, d, 0x3E]
  | .rld => [0xED, 0x6F]
  | .rrd => [0xED, 0x67]
  | .bitR b r => [0xCB, opByte 1 b r.code]
  | .bitAtHl b => [0xCB, opByte 1 b 6]
  | .bitAtIxd b d => [0xDD, 0xCB, d, opByte 1 b 6]
  | .bitAtIyd b d => [0xFD, 0xCB, d, opByte 1 b 6]
  | .resR b r => [0xCB, opByte 2 b r.code]
  | .resAtHl b => [0xCB, opByte 2 b 6]
  | .resAtIxd b d => [0xDD, 0xCB, d, opByte 2 b 6]
  | .resAtIyd b d => [0xFD, 0xCB, d, opByte 2 b 6]
  | .setR b r => [0xCB, opByte 3 b r.code]
  | .setAtHl b => [0xCB, opByte 3 b 6]
  | .setAtIxd b d => [0xDD, 0xCB, d, opByte 3 b 6]
  | .setAtIyd b d => [0xFD, 0xCB, d, opByte 3 b 6]
  | .jpNn nn => [0xC3, loByte nn, hiByte nn]
  | .jpCondNn cc nn => [opByte 3 cc.code 2, loByte nn, hiByte nn]
  | .jrE e => [0x18, e]
  | .jrCondE cc e => [opByte 0 (0b100 ||| cc.code) 0, e]
  | .jpHl => [0xE9]
  | .jpIx => [0xDD, 0xE9]
  | .jpIy => [0xFD, 0xE9]
  | .djnz e => [0x10, e]
  | .callNn nn => [0xCD, loByte nn, hiByte nn]
  | .callCondNn cc nn => [opByte 3 cc.code 4, loByte nn, hiByte nn]
  | .ret => [0xC9]
  | .retCond cc => [opByte 3 cc.code 0]
  | .reti => [0xED, 0x4D]
  | .retn => [0xED, 0x45]
  | .rst p => [opByte 3 (restartField p) 7]
  | .inAN n => [0xDB, n]
  | .inRC r => [0xED, opByte 1 r.code 0]
  | .ini => [0xED, 0xA2]
  | .inir => [0xED, 0xB2]
  | .ind => [0xED, 0xAA]
  | .indr => [0xED, 0xBA]
  | .outNA n => [0xD3, n]
  | .outCR r => [0xED, opByte 1 r.code 1]
  | .outi => [0xED, 0xA3]
  | .otir => [0xED, 0xB3]
  | .outd => [0xED, 0xAB]
  | .otdr => [0xED, 0xBB]

/-- A prefix byte (rule R121). -/
def isPrefixByte (b : Byte) : Bool := b == 0xCB || b == 0xED || b == 0xDD || b == 0xFD

/-- The list begins with a prefix byte. -/
def startsWithPrefix (bs : List Byte) : Bool :=
  match bs with
  | b :: _ => isPrefixByte b
  | [] => false

/-! ## The host's numbering of an instruction's bits -/

/-- The `k` bytes of `w`, least significant byte first. -/
def bytesLow : Nat → Nat → List Byte
  | 0, _ => []
  | k + 1, w => BitVec.ofNat 8 w :: bytesLow k (w / 256)

/-- The bytes in memory order of the instruction whose `nbits` bits are `w`: the first byte leftmost, that is most
significant, as the rows of spec/opcode_table.json have it (rule R137). DEDUCED: log entry 13. -/
def tableBytes (nbits w : Nat) : List Byte := (bytesLow (nbits / 8) w).reverse

/-- `tableBytes` padded with zero bytes to the longest instruction, four bytes (rule R138). -/
def tableWindow (nbits w : Nat) : List Byte := (tableBytes nbits w ++ [0, 0, 0, 0]).take 4

/-- The instruction the decoder reads from the instruction whose bits are `w`. -/
def decodeTableWord (nbits w : Nat) : Option Instr :=
  match decode (tableWindow nbits w) with
  | .ok (i, _) => some i
  | .error _ => none

end Sys2Proof
end

