-- ==== Sys2Proof/Machine/State.lean ====
section
/-! DEFINITION. The state of the machine: every register, flip-flop and hidden bit of spec/10_state.md rule R52, the
memory of rule R51, the inputs the platform drives and the parameters of spec/00_scope.md rule R8, as plain data; the
reasons a step can stop; the state after reset (spec/70_reset_and_hazards.md rule R701). -/

namespace Sys2Proof.Machine

/-- One bank of the general registers and F (spec/10_state.md rules R30, R32, R37). -/
structure Bank where
  a : Byte
  f : Byte
  b : Byte
  c : Byte
  d : Byte
  e : Byte
  h : Byte
  l : Byte
  deriving DecidableEq, Repr

/-- `IM` (rule R46): one of three modes; the value 3 never arises. -/
inductive IntMode where
  | im0 | im1 | im2
  deriving DecidableEq, Repr

/-- What a stretch of memory is: where its reads come from (rule R80, `MemMap`). DESIGN CHOICE in its form: log entry
10. -/
inductive RegionKind where
  /-- Reads give the cell. -/
  | ram
  /-- Reads give the ROM's own contents, a cell not listed as `Config.unlistedByte` says. -/
  | rom (contents : List Host.Cell)
  /-- No memory: reads give this byte. -/
  | absent (reads : Byte)
  /-- A device: each read gives an oracle value and is seen by the device. -/
  | device
  deriving DecidableEq, Repr

/-- What a write to a stretch of memory does, two answers that do not exclude each other (rules R8, R80, `MemMap`).
DESIGN CHOICE in its form: log entry 10. -/
structure WriteEffect where
  /-- The cell takes the byte; under a ROM or a device this is the RAM beneath, which reads there do not show. -/
  kept : Bool
  /-- The platform sees the write. -/
  handed : Bool
  deriving DecidableEq, Repr

/-- A stretch of memory that the platform made other than plain RAM: `size` addresses from `base` on, not wrapping
(rule R80, `MemMap`). -/
structure Region where
  base : Word
  size : Nat
  kind : RegionKind
  onWrite : WriteEffect
  deriving DecidableEq, Repr

/-- What the platform drives into the CPU at one instruction boundary (spec/92_eei_decisions.md D34, `IntSource`). -/
structure Pins where
  /-- The reset input (spec/70_reset_and_hazards.md rule R700). -/
  reset : Bool
  /-- A falling edge of the non-maskable request has come (rule R617). -/
  nmiEdge : Bool
  /-- The level of the maskable request, `int_line` (rule R49). -/
  intLine : Bool
  /-- The byte the interrupting device presents, `int_bus` (rule R49). -/
  intBus : Byte
  deriving DecidableEq, Repr

/-- No request at all: the default of `IntSource` (spec/92_eei_decisions.md section 2). -/
def Pins.quiet : Pins := { reset := false, nmiEdge := false, intLine := false, intBus := 0 }

/-- The parameter `R_MODEL` (spec/92_eei_decisions.md D8). -/
inductive RModel where
  /-- `LD A,R` reads a draw. -/
  | draw
  /-- R counts opcode fetches (spec/93_implementation_defined.md U5). -/
  | m1Count
  deriving DecidableEq, Repr

/-- The parameter `BLOCK_IO_FLAGS` (spec/92_eei_decisions.md D31). -/
inductive BlockIoFlags where
  /-- The source's row: N = 1, C unchanged. -/
  | documented
  /-- N and C are draws too. -/
  | draw
  deriving DecidableEq, Repr

/-- The whole machine (spec/10_state.md rule R52), its inputs and its parameters. -/
structure State where
  /-- A, F, B, C, D, E, H, L (rules R30, R37). -/
  main : Bank
  /-- A', F', B', C', D', E', H', L' (rule R32). -/
  alt : Bank
  /-- IX (rule R34). -/
  ix : Word
  /-- IY (rule R34). -/
  iy : Word
  /-- SP (rule R35). -/
  sp : Word
  /-- PC (rule R36). -/
  pc : Word
  /-- I (rule R43). -/
  i : Byte
  /-- R (rule R44). -/
  r : Byte
  /-- IFF1 (rule R45). -/
  iff1 : Bool
  /-- IFF2 (rule R45). -/
  iff2 : Bool
  /-- IM (rule R46). -/
  im : IntMode
  /-- `halted` (rule R47). -/
  halted : Bool
  /-- `ei_delay` (rule R48). -/
  eiDelay : Bool
  /-- `nmi_pending` (rule R49). -/
  nmiPending : Bool
  /-- The RAM cells (rule R51), strictly rising addresses, no entry equal to `Config.unlistedByte`. -/
  mem : List Host.Cell
  /-- What is not plain RAM (rules R8, R80, `MemMap`); the first region that covers an address counts. -/
  memMap : List Region
  /-- The inputs of the steps to come, one for each step; none left means quiet (rule R8, `IntSource`). DESIGN CHOICE in
  its form: log entry 5. -/
  pins : List Pins
  /-- Answers lined up for the next port reads (rule R8, `IoRead`); none left means the oracle answers. DESIGN CHOICE in
  its form: log entry 4. -/
  portIn : List Byte
  /-- The accesses the platform saw so far, newest first (rules R8, R80, R87: `IoRead`'s history, `IoWrite`'s record, the
  accesses to memory-mapped devices among them). DESIGN CHOICE in its form: log entries 4, 9, 10. -/
  ioTrace : List IoEvent
  /-- The parameter `R_MODEL` (rule R8). -/
  rModel : RModel
  /-- The parameter `BLOCK_IO_FLAGS` (rule R8). -/
  blockIoFlags : BlockIoFlags
  /-- The model's own: how many draws were made (rule R13). DESIGN CHOICE: log entry 3. -/
  draws : Nat
  deriving DecidableEq, Repr

/-- Why a step can stop with a fault: never. The Z80 has no synchronous exception and no bus error
(spec/60_exceptions.md rules R600, R601), so the type has no constructor. Safe: nothing can be claimed of a fault. -/
inductive Fault where
  deriving DecidableEq, Repr

/-- Why a step can have no meaning (spec/00_scope.md rule R14). -/
inductive Refusal where
  /-- Raised by an arm of `exec` whose instruction has no meaning yet. Safe. No arm raises it. -/
  | notModelled (mnemonic : String)
  /-- Raised by a step whose bytes at PC match no row of the opcode table (spec/30_encoding.md rule R133). Safe. -/
  | unlistedEncoding (why : DecodeError)
  /-- Raised by the acceptance of a maskable interrupt in mode 0 when the device supplies anything but a restart
  (spec/60_exceptions.md rule R606). Safe. -/
  | modeZeroSupplied (byte : Byte)
  deriving DecidableEq, Repr

/-- The general registers of one bank after reset: the spec states no value (rule R701), the model takes zero.
DESIGN CHOICE, unsafe: log entry 1. -/
def Bank.zero : Bank := { a := 0, f := 0, b := 0, c := 0, d := 0, e := 0, h := 0, l := 0 }

/-- The machine right after reset (rule R701). A, F and SP take FFH, FFH and FFFFH, the values some documents give by
rule R701's own words, and the other registers it leaves unspecified take zero. DESIGN CHOICE, unsafe: log entry 1. -/
def State.reset : State :=
  { main := { Bank.zero with a := 0xFF, f := 0xFF }, alt := Bank.zero
    ix := 0, iy := 0, sp := 0xFFFF, pc := 0x0000, i := 0x00, r := 0x00
    iff1 := false, iff2 := false, im := .im0
    halted := false, eiDelay := false, nmiPending := false
    mem := [], memMap := [], pins := [], portIn := [], ioTrace := []
    rModel := .draw, blockIoFlags := .documented, draws := 0 }

end Sys2Proof.Machine
end

