-- ==== Sys2Proof/Machine/Operands.lean ====
section
/-! DEFINITION. Every operand form: the 8-bit registers, the register pairs (spec/10_state.md rule R31,
spec/30_encoding.md rule R123) and the effective addresses (spec/20_memory.md rule R98). All reads and writes of a
register go through these. -/

namespace Sys2Proof.Machine

/-! ## 8-bit registers -/

/-- The register of a bank that table `r8` names. -/
def Bank.get (k : Bank) : R8 → Byte
  | .a => k.a | .b => k.b | .c => k.c | .d => k.d | .e => k.e | .h => k.h | .l => k.l

/-- The bank with one register of table `r8` replaced. -/
def Bank.set (k : Bank) (r : R8) (v : Byte) : Bank :=
  match r with
  | .a => { k with a := v } | .b => { k with b := v } | .c => { k with c := v } | .d => { k with d := v }
  | .e => { k with e := v } | .h => { k with h := v } | .l => { k with l := v }

/-- `r8[r]` (spec/00_scope.md rule R11). -/
def State.reg8 (s : State) (r : R8) : Byte := s.main.get r

/-- `r8[r] <- v` (rule R11). -/
def State.setReg8 (s : State) (r : R8) (v : Byte) : State := { s with main := s.main.set r v }

/-- `A <- v`. -/
def State.setA (s : State) (v : Byte) : State := { s with main := { s.main with a := v } }

/-- `B <- v`. -/
def State.setB (s : State) (v : Byte) : State := { s with main := { s.main with b := v } }

/-! ## Register pairs: the first-named register is the high half (rule R31) -/

/-- `BC`. -/
def State.bc (s : State) : Word := wordOf s.main.b s.main.c

/-- `DE`. -/
def State.de (s : State) : Word := wordOf s.main.d s.main.e

/-- `HL`. -/
def State.hl (s : State) : Word := wordOf s.main.h s.main.l

/-- `AF`. -/
def State.af (s : State) : Word := wordOf s.main.a s.main.f

/-- `BC <- v`. -/
def State.setBC (s : State) (v : Word) : State := { s with main := { s.main with b := hiByte v, c := loByte v } }

/-- `DE <- v`. -/
def State.setDE (s : State) (v : Word) : State := { s with main := { s.main with d := hiByte v, e := loByte v } }

/-- `HL <- v`. -/
def State.setHL (s : State) (v : Word) : State := { s with main := { s.main with h := hiByte v, l := loByte v } }

/-- `AF <- v`: all eight bits of F move (spec/92_eei_decisions.md D36). -/
def State.setAF (s : State) (v : Word) : State := { s with main := { s.main with a := hiByte v, f := loByte v } }

/-- `IX <- v`. -/
def State.setIX (s : State) (v : Word) : State := { s with ix := v }

/-- `IY <- v`. -/
def State.setIY (s : State) (v : Word) : State := { s with iy := v }

/-- `SP <- v`. -/
def State.setSP (s : State) (v : Word) : State := { s with sp := v }

/-- `rr[p]` (rule R11). -/
def State.pair (s : State) : RR → Word
  | .bc => s.bc | .de => s.de | .hl => s.hl | .sp => s.sp

/-- `rr[p] <- v` (rule R11). -/
def State.setPair (s : State) (p : RR) (v : Word) : State :=
  match p with
  | .bc => s.setBC v | .de => s.setDE v | .hl => s.setHL v | .sp => s.setSP v

/-- `qq[q]` (rule R11). -/
def State.stackPair (s : State) : QQ → Word
  | .bc => s.bc | .de => s.de | .hl => s.hl | .af => s.af

/-- `qq[q] <- v` (rule R11). -/
def State.setStackPair (s : State) (q : QQ) (v : Word) : State :=
  match q with
  | .bc => s.setBC v | .de => s.setDE v | .hl => s.setHL v | .af => s.setAF v

/-- `pp_ix[p]` (rule R123). -/
def State.pairX (s : State) : PPX → Word
  | .bc => s.bc | .de => s.de | .ix => s.ix | .sp => s.sp

/-- `pp_iy[p]` (rule R123). -/
def State.pairY (s : State) : PPY → Word
  | .bc => s.bc | .de => s.de | .iy => s.iy | .sp => s.sp

/-! ## The interrupt and refresh registers and the control bits (spec/10_state.md rules R43 to R48) -/

/-- `I <- v`. -/
def State.setI (s : State) (v : Byte) : State := { s with i := v }

/-- `R <- v`, all eight bits (rule R44). -/
def State.setR (s : State) (v : Byte) : State := { s with r := v }

/-- `IFF1 <- one; IFF2 <- two` (rule R45). -/
def State.setIff (s : State) (one two : Bool) : State := { s with iff1 := one, iff2 := two }

/-- `IM <- m` (rule R46). -/
def State.setIM (s : State) (m : IntMode) : State := { s with im := m }

/-- `halted <- v` (rule R47). -/
def State.setHalted (s : State) (v : Bool) : State := { s with halted := v }

/-- `ei_delay <- v` (rule R48). -/
def State.setEiDelay (s : State) (v : Bool) : State := { s with eiDelay := v }

/-! ## Effective addresses (rule R98) and relative targets (rule R126) -/

/-- The address of `(IX+d)`, modulo 65536. -/
def State.atIxd (s : State) (d : Byte) : Word := s.ix + sext16 d

/-- The address of `(IY+d)`, modulo 65536. -/
def State.atIyd (s : State) (d : Byte) : Word := s.iy + sext16 d

/-- The target of a two-byte relative jump at `pc`: `(pc + 2 + sext_16(e)) mod 65536`. -/
def State.relative (s : State) (e : Byte) : Word := s.pc + 2 + sext16 e

end Sys2Proof.Machine
end

