-- ==== Sys2Proof/Machine/Flags.lean ====
section
/-! DEFINITION. The flag register F (spec/10_state.md rules R37 to R40) and every flag computation: 8-bit arithmetic
and logic (spec/43_alu8.md rules R320 to R323), DAA (spec/44_general_cpu_control.md rule R380), 16-bit arithmetic
(spec/45_alu16.md rules R400, R401), rotates and shifts (spec/46_rotate_shift.md rules R420 to R422). -/

namespace Sys2Proof.Machine

/-! ## The register F -/

/-- The six named flags (rule R37). -/
structure Flags where
  s : Bool
  z : Bool
  h : Bool
  pv : Bool
  n : Bool
  c : Bool
  deriving DecidableEq, Repr

/-- The named flags of a byte laid out as F (rule R37). -/
def Flags.ofByte (f : Byte) : Flags :=
  { s := f.getLsbD 7, z := f.getLsbD 6, h := f.getLsbD 4, pv := f.getLsbD 2, n := f.getLsbD 1, c := f.getLsbD 0 }

/-- F from its named flags and the unnamed bits 5 and 3 (rule R37). -/
def Flags.pack (fl : Flags) (bit5 bit3 : Bool) : Byte :=
  BitVec.ofBool fl.s ++ BitVec.ofBool fl.z ++ BitVec.ofBool bit5 ++ BitVec.ofBool fl.h ++
    BitVec.ofBool bit3 ++ BitVec.ofBool fl.pv ++ BitVec.ofBool fl.n ++ BitVec.ofBool fl.c

/-- The named flags of F. -/
def State.flags (s : State) : Flags := Flags.ofByte s.main.f

/-- An instruction that writes a named flag leaves bits 5 and 3 of F as draws (rule R39). DESIGN CHOICE on how a draw
is numbered: log entry 3. -/
def State.setFlags (s : State) (fl : Flags) : State :=
  { s with
    main := { s.main with f := fl.pack (Config.freeBit s.draws) (Config.freeBit (s.draws + 1)) }
    draws := s.draws + 2 }

/-- The `k`-th draw of one bit from here on (rule R13). -/
def State.drawnBit (s : State) (k : Nat) : Bool := Config.freeBit (s.draws + k)

/-- `n` draws have been made (rule R13). -/
def State.drew (s : State) (n : Nat) : State := { s with draws := s.draws + n }

/-- `cond(c)` (rule R40). -/
def State.cond (s : State) : Cond → Bool
  | .nz => !s.flags.z | .z => s.flags.z | .nc => !s.flags.c | .c => s.flags.c
  | .po => !s.flags.pv | .pe => s.flags.pv | .p => !s.flags.s | .m => s.flags.s

/-! ## 8-bit arithmetic and logic -/

/-- `parity8(v)`: an even number of 1 bits (spec/00_scope.md rule R10). -/
def parity8 (v : Byte) : Bool :=
  !(v.getLsbD 0 ^^ v.getLsbD 1 ^^ v.getLsbD 2 ^^ v.getLsbD 3 ^^ v.getLsbD 4 ^^ v.getLsbD 5 ^^ v.getLsbD 6 ^^ v.getLsbD 7)

/-- `add8(a, b, cin)` (rule R320). -/
def add8 (a b : Byte) (cin : Bool) : Byte × Flags :=
  let sum := a.toNat + b.toNat + cin.toNat
  let res := BitVec.ofNat 8 sum
  (res, { s := res.getLsbD 7, z := res == 0
          h := decide (a.toNat % 16 + b.toNat % 16 + cin.toNat > 15)
          pv := a.getLsbD 7 == b.getLsbD 7 && res.getLsbD 7 != a.getLsbD 7
          n := false, c := decide (sum > 255) })

/-- `sub8(a, b, cin)` (rule R321). -/
def sub8 (a b : Byte) (cin : Bool) : Byte × Flags :=
  let diff : Int := (a.toNat : Int) - b.toNat - cin.toNat
  let res := BitVec.ofInt 8 diff
  (res, { s := res.getLsbD 7, z := res == 0
          h := decide ((a.toNat % 16 : Int) - (b.toNat % 16 : Int) - cin.toNat < 0)
          pv := a.getLsbD 7 != b.getLsbD 7 && res.getLsbD 7 != a.getLsbD 7
          n := true, c := decide (diff < 0) })

/-- The flags of `logic8(res, h)` (rule R322). -/
def logicFlags (res : Byte) (h : Bool) : Flags :=
  { s := res.getLsbD 7, z := res == 0, h := h, pv := parity8 res, n := false, c := false }

/-- `inc8(v)`, which leaves C (rule R323). -/
def inc8 (v : Byte) (old : Flags) : Byte × Flags :=
  let res := v + 1
  (res, { s := res.getLsbD 7, z := res == 0, h := v.toNat % 16 == 15, pv := v == 0x7F, n := false, c := old.c })

/-- `dec8(v)`, which leaves C (rule R323). -/
def dec8 (v : Byte) (old : Flags) : Byte × Flags :=
  let res := v - 1
  (res, { s := res.getLsbD 7, z := res == 0, h := v.toNat % 16 == 0, pv := v == 0x80, n := true, c := old.c })

/-- DAA on A and the flags before it (rule R380). -/
def daaOf (a : Byte) (old : Flags) : Byte × Flags :=
  let low := a.toNat % 16
  let fixLow := old.h || decide (low > 9)
  let fixHigh := old.c || decide (a.toNat > 0x99)
  let corr : Byte := (if fixLow then 0x06 else 0x00) ||| (if fixHigh then 0x60 else 0x00)
  let res := if old.n then a - corr else a + corr
  (res, { s := res.getLsbD 7, z := res == 0
          h := (!old.n && decide (low > 9)) || (old.n && old.h && decide (low < 6))
          pv := parity8 res, n := old.n, c := fixHigh })

/-- The flags of `LD A,I` and `LD A,R` for the byte loaded (spec/40_load8.md rules R217, R218). -/
def interruptFlags (v : Byte) (iff2 : Bool) (old : Flags) : Flags :=
  { s := v.getLsbD 7, z := v == 0, h := false, pv := iff2, n := false, c := old.c }

/-- The flags of `IN r,(C)`, RLD and RRD: S, Z and parity of a byte, C kept (rules R541, R456, R457). -/
def byteFlags (v : Byte) (old : Flags) : Flags :=
  { s := v.getLsbD 7, z := v == 0, h := false, pv := parity8 v, n := false, c := old.c }

/-! ## 16-bit arithmetic -/

/-- `add16(a, b)`, which leaves S, Z and P/V (rule R400). -/
def add16 (a b : Word) (old : Flags) : Word × Flags :=
  let sum := a.toNat + b.toNat
  (BitVec.ofNat 16 sum,
    { old with h := decide (a.toNat % 4096 + b.toNat % 4096 > 4095), n := false, c := decide (sum > 65535) })

/-- `adc16(a, b, cin)` (rule R401). -/
def adc16 (a b : Word) (cin : Bool) : Word × Flags :=
  let sum := a.toNat + b.toNat + cin.toNat
  let res := BitVec.ofNat 16 sum
  (res, { s := res.getLsbD 15, z := res == 0
          h := decide (a.toNat % 4096 + b.toNat % 4096 + cin.toNat > 4095)
          pv := a.getLsbD 15 == b.getLsbD 15 && res.getLsbD 15 != a.getLsbD 15
          n := false, c := decide (sum > 65535) })

/-- `sbc16(a, b, cin)` (rule R401). -/
def sbc16 (a b : Word) (cin : Bool) : Word × Flags :=
  let diff : Int := (a.toNat : Int) - b.toNat - cin.toNat
  let res := BitVec.ofInt 16 diff
  (res, { s := res.getLsbD 15, z := res == 0
          h := decide ((a.toNat % 4096 : Int) - (b.toNat % 4096 : Int) - cin.toNat < 0)
          pv := a.getLsbD 15 != b.getLsbD 15 && res.getLsbD 15 != a.getLsbD 15
          n := true, c := decide (diff < 0) })

/-! ## Rotates and shifts -/

/-- The seven data movements (rule R420). -/
inductive RotKind where
  | rlc | rrc | rl | rr | sla | sra | srl
  deriving DecidableEq, Repr

/-- `rot(kind, v, cin)`: the new byte and the bit that leaves it (rule R420). -/
def rot (kind : RotKind) (v : Byte) (cin : Bool) : Byte × Bool :=
  let low : Byte := if v.getLsbD 0 then 1 else 0
  let high : Byte := if v.getLsbD 7 then 1 else 0
  let carry : Byte := if cin then 1 else 0
  match kind with
  | .rlc => ((v <<< 1) ||| high, v.getLsbD 7)
  | .rrc => ((v >>> 1) ||| (low <<< 7), v.getLsbD 0)
  | .rl => ((v <<< 1) ||| carry, v.getLsbD 7)
  | .rr => ((v >>> 1) ||| (carry <<< 7), v.getLsbD 0)
  | .sla => (v <<< 1, v.getLsbD 7)
  | .sra => ((v >>> 1) ||| (v &&& 0x80), v.getLsbD 0)
  | .srl => (v >>> 1, v.getLsbD 0)

/-- The flags of the CB-page rotates and shifts (rule R421). -/
def rotFlags (res : Byte) (cout : Bool) : Flags :=
  { s := res.getLsbD 7, z := res == 0, h := false, pv := parity8 res, n := false, c := cout }

/-- The flags of RLCA, RLA, RRCA and RRA, which leave S, Z and P/V (rule R422). -/
def accRotFlags (old : Flags) (cout : Bool) : Flags := { old with h := false, n := false, c := cout }

/-- Bit b alone, the mask of RES and SET (spec/47_bit.md rules R484, R488). -/
def bitMask (b : BitVec 3) : Byte := 1#8 <<< b.toNat

end Sys2Proof.Machine
end

