-- ==== Sys2Proof/Machine/Ops.lean ====
section
/-! DEFINITION. The named operations the meanings share: memory (spec/20_memory.md), the stack (rule R95), ports
(rule R81), the accumulator and memory operations of the instruction families, the refresh register
(spec/93_implementation_defined.md U5), and what happens between instructions: reset, the acceptance of interrupts and
the return from a handler, fetch (spec/60_exceptions.md, spec/70_reset_and_hazards.md). -/

namespace Sys2Proof.Machine

/-- One step's outcome. -/
abbrev Result := Host.Outcome State Fault Refusal

/-! ## The cells: a list in one canonical form -/

/-- The byte at an address. -/
def Memory.read : List Host.Cell → Nat → Byte
  | [], _ => Config.unlistedByte
  | (k, v) :: rest, a => if k = a then v else Memory.read rest a

/-- The list without the entry of an address. -/
def Memory.erase (m : List Host.Cell) (a : Nat) : List Host.Cell := m.filter (fun cell => cell.1 != a)

/-- The list with an entry in its place by address. -/
def Memory.insert (a : Nat) (v : Byte) : List Host.Cell → List Host.Cell
  | [] => [(a, v)]
  | (k, w) :: rest => if a < k then (a, v) :: (k, w) :: rest else (k, w) :: Memory.insert a v rest

/-- A byte stored; storing what an unlisted address reads as removes the entry. -/
def Memory.write (m : List Host.Cell) (a : Nat) (v : Byte) : List Host.Cell :=
  if v = Config.unlistedByte then Memory.erase m a else Memory.insert a v (Memory.erase m a)

/-- Addresses strictly rise from `lo` on and stay below 65536, and no entry says what an unlisted address says. -/
def Memory.wfFrom : Nat → List Host.Cell → Bool
  | _, [] => true
  | lo, (k, v) :: rest => decide (lo ≤ k) && decide (k < 65536) && v != Config.unlistedByte && Memory.wfFrom (k + 1) rest

/-- The canonical form of the cells. -/
def Memory.wf (m : List Host.Cell) : Bool := Memory.wfFrom 0 m

/-! ## Memory accesses (rules R80, R82, R83, R85) -/

/-- An address lies in a region. -/
def Region.covers (g : Region) (a : Word) : Bool :=
  decide (g.base.toNat ≤ a.toNat) && decide (a.toNat < g.base.toNat + g.size)

/-- The region an address lies in; `none` is plain RAM (rule R80, `MemMap`). -/
def State.regionAt (s : State) (a : Word) : Option Region := s.memMap.find? (fun g => g.covers a)

/-- Where a read of an address comes from. -/
def State.kindAt (s : State) (a : Word) : RegionKind :=
  match s.regionAt a with
  | some g => g.kind
  | none => .ram

/-- What a write to an address does. -/
def State.onWriteAt (s : State) (a : Word) : WriteEffect :=
  match s.regionAt a with
  | some g => g.onWrite
  | none => { kept := true, handed := false }

/-- The address is RAM: a read gives what a write there left (rule R90). -/
def State.isRam (s : State) (a : Word) : Bool := s.kindAt a == .ram && (s.onWriteAt a).kept

/-- The address belongs to a device, which sees every read (rule R87). -/
def State.isDevice (s : State) (a : Word) : Bool := s.kindAt a == .device

/-- The RAM cell of an address, whether or not reads show it. -/
def State.cell (s : State) (a : Word) : Byte := Memory.read s.mem a.toNat

/-- The byte `MemRead(a, 1)` returns (spec/00_scope.md rule R11). -/
def State.readByte (s : State) (a : Word) : Byte :=
  match s.kindAt a with
  | .ram => s.cell a
  | .rom contents => Memory.read contents a.toNat
  | .absent v => v
  | .device => Config.deviceByte a s.ioTrace

/-- The platform sees an access. -/
def State.note (s : State) (e : IoEvent) : State := { s with ioTrace := e :: s.ioTrace }

/-- The state after `MemRead(a, 1)`: the CPU attaches no side effect to it, a device there sees it (rule R87). DESIGN
CHOICE in its form: log entry 9. -/
def State.afterRead (s : State) (a : Word) : State :=
  if s.isDevice a then s.note (.memRead a (s.readByte a)) else s

/-- A write is handed to the platform where `MemMap` says so. -/
def State.handWrite (s : State) (a : Word) (v : Byte) : State :=
  if (s.onWriteAt a).handed then s.note (.memWrite a v) else s

/-- A write reaches the cell where `MemMap` says so. -/
def State.keepWrite (s : State) (a : Word) (v : Byte) : State :=
  if (s.onWriteAt a).kept then { s with mem := Memory.write s.mem a.toNat v } else s

/-- `MemWrite(a, 1, v)` (rule R11). What it does where the address is not plain RAM is `MemMap`'s. DESIGN CHOICE in its
form: log entry 10. -/
def State.writeByte (s : State) (a : Word) (v : Byte) : State := (s.handWrite a v).keepWrite a v

/-- The word `MemRead(a, 2)` returns: first the low byte at `a`, then the high byte at `(a + 1) mod 65536` (rules R11,
R82, R83). -/
def State.readWord (s : State) (a : Word) : Word := wordOf ((s.afterRead a).readByte (a + 1)) (s.readByte a)

/-- The state after `MemRead(a, 2)`. -/
def State.afterReadWord (s : State) (a : Word) : State := (s.afterRead a).afterRead (a + 1)

/-- `MemWrite(a, 2, w)`: low byte at `a` first, then high byte at `(a + 1) mod 65536`. Rule R82 gives the two addresses,
and rule R83 the order for stores through `(nn)`. No rule orders the two writes of `EX (SP),HL`, `EX (SP),IX` and
`EX (SP),IY`: that they come in this order too is a DESIGN CHOICE, log entry 25. -/
def State.writeWord (s : State) (a : Word) (w : Word) : State :=
  (s.writeByte a (loByte w)).writeByte (a + 1) (hiByte w)

/-- `Push16(v)` (rule R95): high byte at SP - 1, then low byte at SP - 2. -/
def State.push16 (s : State) (v : Word) : State :=
  let s1 := s.setSP (s.sp - 1)
  let s2 := s1.writeByte s1.sp (hiByte v)
  let s3 := s2.setSP (s2.sp - 1)
  s3.writeByte s3.sp (loByte v)

/-- The word `Pop16()` returns (rule R95). -/
def State.popped (s : State) : Word := s.readWord s.sp

/-- The state `Pop16()` leaves (rule R95). -/
def State.afterPop (s : State) : State := (s.afterReadWord s.sp).setSP (s.sp + 2)

/-! ## Ports (rule R81) -/

/-- The byte `IoRead(port)` returns: the next answer lined up, or the oracle's. -/
def State.portAnswer (s : State) (port : Word) : Byte :=
  match s.portIn with
  | v :: _ => v
  | [] => Config.portAnswer port s.ioTrace

/-- The state after `IoRead(port)`. -/
def State.afterPortRead (s : State) (port : Word) : State :=
  { s with portIn := s.portIn.tail, ioTrace := .portRead port (s.portAnswer port) :: s.ioTrace }

/-- `IoWrite(port, v)`: handed to the platform, recorded (spec/92_eei_decisions.md section 2). -/
def State.portWrite (s : State) (port : Word) (v : Byte) : State :=
  { s with ioTrace := .portWrite port v :: s.ioTrace }

/-! ## The program counter -/

/-- `pc <- target`. -/
def State.jump (s : State) (target : Word) : State := { s with pc := target }

/-- `pc <- (pc + n) mod 65536` (spec/10_state.md rule R36). -/
def State.advance (s : State) (n : Word) : State := s.jump (s.pc + n)

/-- A repeating instruction of two bytes: pc stays while it repeats (rules R287, R543). -/
def State.advanceUnless (s : State) (again : Bool) : State := if again then s else s.advance 2

/-- `Push16(ret); pc <- target`: CALL and RST (spec/48_jump_call_return.md rules R508, R514). -/
def State.call (s : State) (ret target : Word) : State := (s.push16 ret).jump target

/-- `pc <- Pop16()`: RET, RETI and RETN, the return from a handler (spec/60_exceptions.md rule R612). -/
def State.returnFrom (s : State) : State := s.afterPop.jump s.popped

/-! ## Accumulator operations (rules R324 to R363) -/

/-- `A <- add8(A, v, cin)`. -/
def State.addToA (s : State) (v : Byte) (cin : Bool) : State :=
  (s.setA (add8 s.main.a v cin).1).setFlags (add8 s.main.a v cin).2

/-- `A <- sub8(A, v, cin)`. -/
def State.subFromA (s : State) (v : Byte) (cin : Bool) : State :=
  (s.setA (sub8 s.main.a v cin).1).setFlags (sub8 s.main.a v cin).2

/-- `sub8(A, v, 0)` for its flags alone: CP (rules R339 to R343). -/
def State.compareA (s : State) (v : Byte) : State := s.setFlags (sub8 s.main.a v false).2

/-- `A <- logic8(res, h)`. -/
def State.logicToA (s : State) (res : Byte) (h : Bool) : State := (s.setA res).setFlags (logicFlags res h)

/-! ## Operations on one operand in place -/

/-- A register replaced by a flag-setting function of it. -/
def State.updateReg8 (s : State) (r : R8) (p : Byte × Flags) : State := (s.setReg8 r p.1).setFlags p.2

/-- A memory byte replaced by a function of it: read, then written (rule R99). -/
def State.rewriteByte (s : State) (a : Word) (v : Byte) : State := (s.afterRead a).writeByte a v

/-- A memory byte replaced by a flag-setting function of it. -/
def State.updateByte (s : State) (a : Word) (p : Byte × Flags) : State := (s.rewriteByte a p.1).setFlags p.2

/-- The result and flags of a CB-page rotate or shift (rules R420, R421). -/
def State.rotated (s : State) (kind : RotKind) (v : Byte) : Byte × Flags :=
  let p := rot kind v s.flags.c
  (p.1, rotFlags p.1 p.2)

/-- RLCA, RLA, RRCA, RRA (rule R422). -/
def State.rotateA (s : State) (kind : RotKind) : State :=
  let p := rot kind s.main.a s.flags.c
  (s.setA p.1).setFlags (accRotFlags s.flags p.2)

/-- The flags of BIT: Z from the tested bit, S and P/V draws (spec/47_bit.md rule R480). -/
def State.testBit (s : State) (b : BitVec 3) (v : Byte) : State :=
  (s.drew 2).setFlags
    { s := s.drawnBit 0, z := !v.getLsbD b.toNat, h := true, pv := s.drawnBit 1, n := false, c := s.flags.c }

/-- `HL <- HL + rr` and the like: the flags of `add16` (rule R400). -/
def State.withSum16 (s : State) (p : Word × Flags) : State := (s.setHL p.1).setFlags p.2

/-! ## Block instructions -/

/-- One byte from (HL) to (DE), pointers stepped, BC down: LDI and LDD (rules R286, R288). -/
def State.loadBlock (s : State) (delta : Word) : State :=
  let s1 := (s.afterRead s.hl).writeByte s.de (s.readByte s.hl)
  let s2 := ((s1.setHL (s1.hl + delta)).setDE (s1.de + delta)).setBC (s1.bc - 1)
  s2.setFlags { s2.flags with h := false, pv := s2.bc != 0, n := false }

/-- A compared with (HL), HL stepped, BC down: CPI and CPD (rules R290, R292). -/
def State.compareBlock (s : State) (delta : Word) : State :=
  let m := s.readByte s.hl
  let t := s.main.a - m
  let s1 := ((s.afterRead s.hl).setHL (s.hl + delta)).setBC (s.bc - 1)
  s1.setFlags { s := t.getLsbD 7, z := t == 0, h := decide (s.main.a.toNat % 16 < m.toNat % 16)
                pv := s1.bc != 0, n := true, c := s.flags.c }

/-- The flags of the block input and output, B already counted down (rule R542; `BLOCK_IO_FLAGS`, rule R8). -/
def State.setBlockIoFlags (s : State) : State :=
  let z := s.main.b == 0
  let fl : Flags :=
    match s.blockIoFlags with
    | .documented =>
      { s := s.drawnBit 0, z := z, h := s.drawnBit 1, pv := s.drawnBit 2, n := true, c := s.flags.c }
    | .draw =>
      { s := s.drawnBit 0, z := z, h := s.drawnBit 1, pv := s.drawnBit 2, n := s.drawnBit 3, c := s.drawnBit 4 }
  (s.drew 5).setFlags fl

/-- One byte from the port BC to (HL), HL stepped, B down: INI and IND (rules R542, R544). -/
def State.inputBlock (s : State) (delta : Word) : State :=
  let s1 := (s.afterPortRead s.bc).writeByte s.hl (s.portAnswer s.bc)
  ((s1.setHL (s1.hl + delta)).setB (s1.main.b - 1)).setBlockIoFlags

/-- One byte read from (HL), B down, the byte to the port BC, HL stepped: OUTI and OUTD (rules R548, R550). -/
def State.outputBlock (s : State) (delta : Word) : State :=
  let s1 := (s.afterRead s.hl).setB (s.main.b - 1)
  let s2 := s1.portWrite s1.bc (s.readByte s.hl)
  (s2.setHL (s2.hl + delta)).setBlockIoFlags

/-! ## The refresh register -/

/-- `n` opcode fetches counted in the low seven bits of R under `R_MODEL = m1_count`, bit 7 kept; nothing under
`R_MODEL = draw` (spec/93_implementation_defined.md U5). PRESUMED: log entry 6. -/
def State.countFetches (s : State) (n : Byte) : State :=
  match s.rModel with
  | .draw => s
  | .m1Count => s.setR ((s.r &&& 0x80) ||| ((s.r + n) &&& 0x7F))

/-- `read_R()` (spec/40_load8.md rule R218). -/
def State.readR (s : State) : Byte :=
  match s.rModel with
  | .draw => Config.freeByte s.draws
  | .m1Count => s.r

/-- The state after `read_R()`: one draw was made under `R_MODEL = draw`. -/
def State.afterReadR (s : State) : State :=
  match s.rModel with
  | .draw => s.drew 1
  | .m1Count => s

/-! ## Between instructions: reset and interrupts -/

/-- The inputs of this step (rule R8, `IntSource`). -/
def State.sampledPins (s : State) : Pins := s.pins.headD Pins.quiet

/-- The inputs of this step are taken: an edge of the non-maskable request is latched (spec/60_exceptions.md rule
R617). DESIGN CHOICE in its form: log entries 5, 24. -/
def State.sample (s : State) : State :=
  { s with pins := s.pins.tail, nmiPending := s.nmiPending || s.sampledPins.nmiEdge }

/-- A bank of eight draws. -/
def freeBank (n : Nat) : Bank :=
  { a := Config.freeByte n, f := Config.freeByte (n + 1), b := Config.freeByte (n + 2), c := Config.freeByte (n + 3)
    d := Config.freeByte (n + 4), e := Config.freeByte (n + 5), h := Config.freeByte (n + 6), l := Config.freeByte (n + 7) }

/-- A reset during a run (spec/70_reset_and_hazards.md rules R700, R701): what the rule leaves unspecified is a draw;
memory, the platform and the parameters stay. DESIGN CHOICE: log entry 8. -/
def State.cpuReset (s : State) : State :=
  { s with
    main := freeBank s.draws, alt := freeBank (s.draws + 8)
    ix := Config.freeWord (s.draws + 16), iy := Config.freeWord (s.draws + 17), sp := Config.freeWord (s.draws + 18)
    pc := 0x0000, i := 0x00, r := 0x00, iff1 := false, iff2 := false, im := .im0
    halted := false, eiDelay := false, nmiPending := false, draws := s.draws + 19 }

/-- Taking an exception: control goes to a handler, pc alone is saved (spec/60_exceptions.md rule R605). -/
def State.enterHandler (s : State) (handler : Word) : State := (s.push16 s.pc).jump handler

/-- Taking an exception whose handler address stands in memory: pc is saved, then the table entry is read (rule R608). -/
def State.enterVector (s : State) (entry : Word) : State :=
  let s1 := s.push16 s.pc
  (s1.afterReadWord entry).jump (s1.readWord entry)

/-- Acceptance of the non-maskable interrupt (rule R609). -/
def State.acceptNmi (s : State) : State :=
  let s1 : State := { s with nmiPending := false }
  let s2 := ((s1.setHalted false).setEiDelay false).setIff false s1.iff2
  (s2.countFetches 1).enterHandler 0x0066

/-- The maskable request is accepted at this boundary (rules R602, R604). -/
def State.takesInt (s : State) (p : Pins) : Bool := p.intLine && s.iff1 && !s.eiDelay

/-- A restart instruction, `b & C7H = C7H` (rule R606). -/
def isRestartByte (b : Byte) : Bool := b &&& 0xC7 == 0xC7

/-- What acceptance of a maskable interrupt does in every mode before control moves (rule R605). -/
def State.maskInt (s : State) : State :=
  ((s.setHalted false).setIff false false).countFetches 1

/-- Acceptance of a maskable interrupt with the byte `bus` presented (rules R605 to R608). -/
def State.acceptInt (s : State) (bus : Byte) : Result :=
  match s.im with
  | .im0 =>
    if isRestartByte bus then .next (s.maskInt.enterHandler (wordOf 0x00 (bus &&& 0x38)))
    else .refused (.modeZeroSupplied bus)
  | .im1 => .next (s.maskInt.enterHandler 0x0038)
  | .im2 => .next (s.maskInt.enterVector (wordOf s.i bus))

/-- A step of the halt state (rule R611): nothing changes, but that R counts under `R_MODEL = m1_count` (U5). -/
def State.idle (s : State) : State := s.countFetches 1

/-! ## Fetch (rules R89, R99, R127) -/

/-- The bytes from PC on, `got` of them read already, read one after the other until they are an instruction or are
refused: as many as the opcode bytes call for, at most `n` more. The state is the one after those reads. DEDUCED: log
entry 21. -/
def State.fetchMore : Nat → List Byte → State → State × Except DecodeError Instr
  | 0, _, s => (s, .error .truncated)
  | n + 1, got, s =>
    let a := s.pc + BitVec.ofNat 16 got.length
    let bytes := got ++ [s.readByte a]
    match decode bytes with
    | .ok (i, _) => (s.afterRead a, .ok i)
    | .error (.unlisted page op) => (s.afterRead a, .error (.unlisted page op))
    | .error .truncated => State.fetchMore n bytes (s.afterRead a)

/-- The fetch of one instruction: no instruction has more than four bytes (rule R138). -/
def State.fetch (s : State) : State × Except DecodeError Instr := State.fetchMore 4 [] s

/-- The instruction at PC. -/
def State.fetched (s : State) : Except DecodeError Instr := s.fetch.2

/-- The state after the instruction's bytes are read. -/
def State.afterFetch (s : State) : State := s.fetch.1

/-- How many opcode fetches an instruction takes: two with a prefix, else one (U5). -/
def opcodeFetches (i : Instr) : Byte := if startsWithPrefix (encode i) then 2 else 1

/-- What a step does before the instruction's own rule: the instruction's bytes read (rule R99), `ei_delay <- 0` (rule
R602), the opcode fetches counted. -/
def State.beginInstr (s : State) (i : Instr) : State :=
  (s.afterFetch.setEiDelay false).countFetches (opcodeFetches i)

/-! ## Placing bytes from outside the machine -/

/-- The regions that would hide a byte placed in the four cells from `a` on are gone. -/
def State.clearMapAt (s : State) (a : Word) : State :=
  { s with memMap := s.memMap.filter (fun g =>
      g.kind == .ram || !(g.covers a || g.covers (a + 1) || g.covers (a + 2) || g.covers (a + 3))) }

/-- Bytes put into the cells from `a` on, as a loader would. -/
def State.placeBytes (s : State) (a : Word) : List Byte → State
  | [] => s
  | v :: rest => ({ s with mem := Memory.write s.mem a.toNat v } : State).placeBytes (a + 1) rest

/-- Nothing comes before the next instruction: not halted, no request and no reset in the next step. -/
def State.quietNext (s : State) : State :=
  { s with halted := false, nmiPending := false
           pins := match s.pins with
             | [] => []
             | _ :: rest => Pins.quiet :: rest }

end Sys2Proof.Machine
end

