-- ==== Sys2Proof/Machine/Alu16.lean ====
section
/-! DEFINITION. The meanings of the 16-bit arithmetic (spec/45_alu16.md rules R402 to R412). Each takes
the state with pc at the instruction and leaves pc where the rule says. -/

namespace Sys2Proof.Machine

/-- `ADC HL,rr` (rule R402). -/
def execAdcHlPair (p : RR) (s : State) : Result :=
  .next ((s.withSum16 (adc16 s.hl (s.pair p) s.flags.c)).advance 2)

/-- `ADD HL,rr` (rule R403). -/
def execAddHlPair (p : RR) (s : State) : Result :=
  .next ((s.withSum16 (add16 s.hl (s.pair p) s.flags)).advance 1)

/-- `ADD IX,pp` (rule R404). -/
def execAddIxPair (p : PPX) (s : State) : Result :=
  .next (((s.setIX (add16 s.ix (s.pairX p) s.flags).1).setFlags (add16 s.ix (s.pairX p) s.flags).2).advance 2)

/-- `ADD IY,pp` (rule R405). -/
def execAddIyPair (p : PPY) (s : State) : Result :=
  .next (((s.setIY (add16 s.iy (s.pairY p) s.flags).1).setFlags (add16 s.iy (s.pairY p) s.flags).2).advance 2)

/-- `SBC HL,rr` (rule R406). -/
def execSbcHlPair (p : RR) (s : State) : Result :=
  .next ((s.withSum16 (sbc16 s.hl (s.pair p) s.flags.c)).advance 2)

/-- `INC rr` (rule R407). -/
def execIncPair (p : RR) (s : State) : Result :=
  .next ((s.setPair p (s.pair p + 1)).advance 1)

/-- `INC IX` (rule R408). -/
def execIncIx (s : State) : Result :=
  .next ((s.setIX (s.ix + 1)).advance 2)

/-- `INC IY` (rule R409). -/
def execIncIy (s : State) : Result :=
  .next ((s.setIY (s.iy + 1)).advance 2)

/-- `DEC rr` (rule R410). -/
def execDecPair (p : RR) (s : State) : Result :=
  .next ((s.setPair p (s.pair p - 1)).advance 1)

/-- `DEC IX` (rule R411). -/
def execDecIx (s : State) : Result :=
  .next ((s.setIX (s.ix - 1)).advance 2)

/-- `DEC IY` (rule R412). -/
def execDecIy (s : State) : Result :=
  .next ((s.setIY (s.iy - 1)).advance 2)

end Sys2Proof.Machine
end

