-- ==== Sys2Proof/Machine/Alu8.lean ====
section
/-! DEFINITION. The meanings of the 8-bit arithmetic and logic (spec/43_alu8.md rules R324 to R371). Each takes
the state with pc at the instruction and leaves pc where the rule says. -/

namespace Sys2Proof.Machine

/-- `ADC A,r` (rule R324). -/
def execAdcR (r : R8) (s : State) : Result :=
  .next ((s.addToA (s.reg8 r) s.flags.c).advance 1)

/-- `ADC A,n` (rule R325). -/
def execAdcN (n : Byte) (s : State) : Result :=
  .next ((s.addToA n s.flags.c).advance 2)

/-- `ADC A,(HL)` (rule R326). -/
def execAdcAtHl (s : State) : Result :=
  .next (((s.afterRead s.hl).addToA (s.readByte s.hl) s.flags.c).advance 1)

/-- `ADC A,(IX+d)` (rule R327). -/
def execAdcAtIxd (d : Byte) (s : State) : Result :=
  .next (((s.afterRead (s.atIxd d)).addToA (s.readByte (s.atIxd d)) s.flags.c).advance 3)

/-- `ADC A,(IY+d)` (rule R328). -/
def execAdcAtIyd (d : Byte) (s : State) : Result :=
  .next (((s.afterRead (s.atIyd d)).addToA (s.readByte (s.atIyd d)) s.flags.c).advance 3)

/-- `ADD A,r` (rule R329). -/
def execAddR (r : R8) (s : State) : Result :=
  .next ((s.addToA (s.reg8 r) false).advance 1)

/-- `ADD A,n` (rule R330). -/
def execAddN (n : Byte) (s : State) : Result :=
  .next ((s.addToA n false).advance 2)

/-- `ADD A,(HL)` (rule R331). -/
def execAddAtHl (s : State) : Result :=
  .next (((s.afterRead s.hl).addToA (s.readByte s.hl) false).advance 1)

/-- `ADD A,(IX+d)` (rule R332). -/
def execAddAtIxd (d : Byte) (s : State) : Result :=
  .next (((s.afterRead (s.atIxd d)).addToA (s.readByte (s.atIxd d)) false).advance 3)

/-- `ADD A,(IY+d)` (rule R333). -/
def execAddAtIyd (d : Byte) (s : State) : Result :=
  .next (((s.afterRead (s.atIyd d)).addToA (s.readByte (s.atIyd d)) false).advance 3)

/-- `AND r` (rule R334). -/
def execAndR (r : R8) (s : State) : Result :=
  .next ((s.logicToA (s.main.a &&& (s.reg8 r)) true).advance 1)

/-- `AND n` (rule R335). -/
def execAndN (n : Byte) (s : State) : Result :=
  .next ((s.logicToA (s.main.a &&& n) true).advance 2)

/-- `AND (HL)` (rule R336). -/
def execAndAtHl (s : State) : Result :=
  .next (((s.afterRead s.hl).logicToA (s.main.a &&& (s.readByte s.hl)) true).advance 1)

/-- `AND (IX+d)` (rule R337). -/
def execAndAtIxd (d : Byte) (s : State) : Result :=
  .next (((s.afterRead (s.atIxd d)).logicToA (s.main.a &&& (s.readByte (s.atIxd d))) true).advance 3)

/-- `AND (IY+d)` (rule R338). -/
def execAndAtIyd (d : Byte) (s : State) : Result :=
  .next (((s.afterRead (s.atIyd d)).logicToA (s.main.a &&& (s.readByte (s.atIyd d))) true).advance 3)

/-- `CP r` (rule R339). -/
def execCpR (r : R8) (s : State) : Result :=
  .next ((s.compareA (s.reg8 r)).advance 1)

/-- `CP n` (rule R340). -/
def execCpN (n : Byte) (s : State) : Result :=
  .next ((s.compareA n).advance 2)

/-- `CP (HL)` (rule R341). -/
def execCpAtHl (s : State) : Result :=
  .next (((s.afterRead s.hl).compareA (s.readByte s.hl)).advance 1)

/-- `CP (IX+d)` (rule R342). -/
def execCpAtIxd (d : Byte) (s : State) : Result :=
  .next (((s.afterRead (s.atIxd d)).compareA (s.readByte (s.atIxd d))).advance 3)

/-- `CP (IY+d)` (rule R343). -/
def execCpAtIyd (d : Byte) (s : State) : Result :=
  .next (((s.afterRead (s.atIyd d)).compareA (s.readByte (s.atIyd d))).advance 3)

/-- `OR r` (rule R344). -/
def execOrR (r : R8) (s : State) : Result :=
  .next ((s.logicToA (s.main.a ||| (s.reg8 r)) false).advance 1)

/-- `OR n` (rule R345). -/
def execOrN (n : Byte) (s : State) : Result :=
  .next ((s.logicToA (s.main.a ||| n) false).advance 2)

/-- `OR (HL)` (rule R346). -/
def execOrAtHl (s : State) : Result :=
  .next (((s.afterRead s.hl).logicToA (s.main.a ||| (s.readByte s.hl)) false).advance 1)

/-- `OR (IX+d)` (rule R347). -/
def execOrAtIxd (d : Byte) (s : State) : Result :=
  .next (((s.afterRead (s.atIxd d)).logicToA (s.main.a ||| (s.readByte (s.atIxd d))) false).advance 3)

/-- `OR (IY+d)` (rule R348). -/
def execOrAtIyd (d : Byte) (s : State) : Result :=
  .next (((s.afterRead (s.atIyd d)).logicToA (s.main.a ||| (s.readByte (s.atIyd d))) false).advance 3)

/-- `SBC A,r` (rule R349). -/
def execSbcR (r : R8) (s : State) : Result :=
  .next ((s.subFromA (s.reg8 r) s.flags.c).advance 1)

/-- `SBC A,n` (rule R350). -/
def execSbcN (n : Byte) (s : State) : Result :=
  .next ((s.subFromA n s.flags.c).advance 2)

/-- `SBC A,(HL)` (rule R351). -/
def execSbcAtHl (s : State) : Result :=
  .next (((s.afterRead s.hl).subFromA (s.readByte s.hl) s.flags.c).advance 1)

/-- `SBC A,(IX+d)` (rule R352). -/
def execSbcAtIxd (d : Byte) (s : State) : Result :=
  .next (((s.afterRead (s.atIxd d)).subFromA (s.readByte (s.atIxd d)) s.flags.c).advance 3)

/-- `SBC A,(IY+d)` (rule R353). -/
def execSbcAtIyd (d : Byte) (s : State) : Result :=
  .next (((s.afterRead (s.atIyd d)).subFromA (s.readByte (s.atIyd d)) s.flags.c).advance 3)

/-- `SUB A,r` (rule R354). -/
def execSubR (r : R8) (s : State) : Result :=
  .next ((s.subFromA (s.reg8 r) false).advance 1)

/-- `SUB A,n` (rule R355). -/
def execSubN (n : Byte) (s : State) : Result :=
  .next ((s.subFromA n false).advance 2)

/-- `SUB A,(HL)` (rule R356). -/
def execSubAtHl (s : State) : Result :=
  .next (((s.afterRead s.hl).subFromA (s.readByte s.hl) false).advance 1)

/-- `SUB A,(IX+d)` (rule R357). -/
def execSubAtIxd (d : Byte) (s : State) : Result :=
  .next (((s.afterRead (s.atIxd d)).subFromA (s.readByte (s.atIxd d)) false).advance 3)

/-- `SUB A,(IY+d)` (rule R358). -/
def execSubAtIyd (d : Byte) (s : State) : Result :=
  .next (((s.afterRead (s.atIyd d)).subFromA (s.readByte (s.atIyd d)) false).advance 3)

/-- `XOR r` (rule R359). -/
def execXorR (r : R8) (s : State) : Result :=
  .next ((s.logicToA (s.main.a ^^^ (s.reg8 r)) false).advance 1)

/-- `XOR n` (rule R360). -/
def execXorN (n : Byte) (s : State) : Result :=
  .next ((s.logicToA (s.main.a ^^^ n) false).advance 2)

/-- `XOR (HL)` (rule R361). -/
def execXorAtHl (s : State) : Result :=
  .next (((s.afterRead s.hl).logicToA (s.main.a ^^^ (s.readByte s.hl)) false).advance 1)

/-- `XOR (IX+d)` (rule R362). -/
def execXorAtIxd (d : Byte) (s : State) : Result :=
  .next (((s.afterRead (s.atIxd d)).logicToA (s.main.a ^^^ (s.readByte (s.atIxd d))) false).advance 3)

/-- `XOR (IY+d)` (rule R363). -/
def execXorAtIyd (d : Byte) (s : State) : Result :=
  .next (((s.afterRead (s.atIyd d)).logicToA (s.main.a ^^^ (s.readByte (s.atIyd d))) false).advance 3)

/-- `INC r` (rule R364). -/
def execIncR (r : R8) (s : State) : Result :=
  .next ((s.updateReg8 r (inc8 (s.reg8 r) s.flags)).advance 1)

/-- `INC (HL)` (rule R365). -/
def execIncAtHl (s : State) : Result :=
  .next ((s.updateByte s.hl (inc8 (s.readByte s.hl) s.flags)).advance 1)

/-- `INC (IX+d)` (rule R366). -/
def execIncAtIxd (d : Byte) (s : State) : Result :=
  .next ((s.updateByte (s.atIxd d) (inc8 (s.readByte (s.atIxd d)) s.flags)).advance 3)

/-- `INC (IY+d)` (rule R367). -/
def execIncAtIyd (d : Byte) (s : State) : Result :=
  .next ((s.updateByte (s.atIyd d) (inc8 (s.readByte (s.atIyd d)) s.flags)).advance 3)

/-- `DEC r` (rule R368). -/
def execDecR (r : R8) (s : State) : Result :=
  .next ((s.updateReg8 r (dec8 (s.reg8 r) s.flags)).advance 1)

/-- `DEC (HL)` (rule R369). -/
def execDecAtHl (s : State) : Result :=
  .next ((s.updateByte s.hl (dec8 (s.readByte s.hl) s.flags)).advance 1)

/-- `DEC (IX+d)` (rule R370). -/
def execDecAtIxd (d : Byte) (s : State) : Result :=
  .next ((s.updateByte (s.atIxd d) (dec8 (s.readByte (s.atIxd d)) s.flags)).advance 3)

/-- `DEC (IY+d)` (rule R371). -/
def execDecAtIyd (d : Byte) (s : State) : Result :=
  .next ((s.updateByte (s.atIyd d) (dec8 (s.readByte (s.atIyd d)) s.flags)).advance 3)

end Sys2Proof.Machine
end

