-- ==== Sys2Proof/Machine/Bit.lean ====
section
/-! DEFINITION. The meanings of the bit test, reset and set (spec/47_bit.md rules R480 to R491). Each takes
the state with pc at the instruction and leaves pc where the rule says. -/

namespace Sys2Proof.Machine

/-- `BIT b,r` (rule R480). -/
def execBitR (b : BitVec 3) (r : R8) (s : State) : Result :=
  .next ((s.testBit b (s.reg8 r)).advance 2)

/-- `BIT b,(HL)` (rule R481). -/
def execBitAtHl (b : BitVec 3) (s : State) : Result :=
  .next (((s.afterRead s.hl).testBit b (s.readByte s.hl)).advance 2)

/-- `BIT b,(IX+d)` (rule R482). -/
def execBitAtIxd (b : BitVec 3) (d : Byte) (s : State) : Result :=
  .next (((s.afterRead (s.atIxd d)).testBit b (s.readByte (s.atIxd d))).advance 4)

/-- `BIT b,(IY+d)` (rule R483). -/
def execBitAtIyd (b : BitVec 3) (d : Byte) (s : State) : Result :=
  .next (((s.afterRead (s.atIyd d)).testBit b (s.readByte (s.atIyd d))).advance 4)

/-- `RES b,r` (rule R484). -/
def execResR (b : BitVec 3) (r : R8) (s : State) : Result :=
  .next ((s.setReg8 r (s.reg8 r &&& ~~~bitMask b)).advance 2)

/-- `RES b,(HL)` (rule R485). -/
def execResAtHl (b : BitVec 3) (s : State) : Result :=
  .next ((s.rewriteByte s.hl (s.readByte s.hl &&& ~~~bitMask b)).advance 2)

/-- `RES b,(IX+d)` (rule R486). -/
def execResAtIxd (b : BitVec 3) (d : Byte) (s : State) : Result :=
  .next ((s.rewriteByte (s.atIxd d) (s.readByte (s.atIxd d) &&& ~~~bitMask b)).advance 4)

/-- `RES b,(IY+d)` (rule R487). -/
def execResAtIyd (b : BitVec 3) (d : Byte) (s : State) : Result :=
  .next ((s.rewriteByte (s.atIyd d) (s.readByte (s.atIyd d) &&& ~~~bitMask b)).advance 4)

/-- `SET b,r` (rule R488). -/
def execSetR (b : BitVec 3) (r : R8) (s : State) : Result :=
  .next ((s.setReg8 r (s.reg8 r ||| bitMask b)).advance 2)

/-- `SET b,(HL)` (rule R489). -/
def execSetAtHl (b : BitVec 3) (s : State) : Result :=
  .next ((s.rewriteByte s.hl (s.readByte s.hl ||| bitMask b)).advance 2)

/-- `SET b,(IX+d)` (rule R490). -/
def execSetAtIxd (b : BitVec 3) (d : Byte) (s : State) : Result :=
  .next ((s.rewriteByte (s.atIxd d) (s.readByte (s.atIxd d) ||| bitMask b)).advance 4)

/-- `SET b,(IY+d)` (rule R491). -/
def execSetAtIyd (b : BitVec 3) (d : Byte) (s : State) : Result :=
  .next ((s.rewriteByte (s.atIyd d) (s.readByte (s.atIyd d) ||| bitMask b)).advance 4)

end Sys2Proof.Machine
end

