-- ==== Sys2Proof/Machine/Exchange.lean ====
section
/-! DEFINITION. The meanings of the exchanges, block transfer and block search (spec/42_exchange_block.md rules R280 to R293).
A repeating form is one iteration a step (rule R287). Each takes
the state with pc at the instruction and leaves pc where the rule says. -/

namespace Sys2Proof.Machine

/-- `EX DE,HL` (rule R280). -/
def execExDeHl (s : State) : Result :=
  .next (((s.setDE s.hl).setHL s.de).advance 1)

/-- `EX AF,AF'` (rule R281). -/
def execExAf (s : State) : Result :=
  .next (({ s with
    main := { s.main with a := s.alt.a, f := s.alt.f }
    alt := { s.alt with a := s.main.a, f := s.main.f } } : State).advance 1)

/-- `EXX` (rule R282). -/
def execExx (s : State) : Result :=
  .next (({ s with
    main := { s.alt with a := s.main.a, f := s.main.f }
    alt := { s.main with a := s.alt.a, f := s.alt.f } } : State).advance 1)

/-- `EX (SP),HL` (rule R283). Both bytes are read before either is written (rule R99). The order of the two writes is a
DESIGN CHOICE: log entry 25. -/
def execExAtSpHl (s : State) : Result :=
  .next ((((s.afterReadWord s.sp).writeWord s.sp s.hl).setHL (s.readWord s.sp)).advance 1)

/-- `EX (SP),IX` (rule R284). The order of the two writes is a DESIGN CHOICE: log entry 25. -/
def execExAtSpIx (s : State) : Result :=
  .next ((((s.afterReadWord s.sp).writeWord s.sp s.ix).setIX (s.readWord s.sp)).advance 2)

/-- `EX (SP),IY` (rule R285). The order of the two writes is a DESIGN CHOICE: log entry 25. -/
def execExAtSpIy (s : State) : Result :=
  .next ((((s.afterReadWord s.sp).writeWord s.sp s.iy).setIY (s.readWord s.sp)).advance 2)

/-- `LDI` (rule R286). -/
def execLdi (s : State) : Result :=
  .next ((s.loadBlock 1).advance 2)

/-- `LDIR` (rule R287). -/
def execLdir (s : State) : Result :=
  .next ((s.loadBlock 1).advanceUnless (s.bc - 1 != 0))

/-- `LDD` (rule R288). -/
def execLdd (s : State) : Result :=
  .next ((s.loadBlock (-1)).advance 2)

/-- `LDDR` (rule R289). -/
def execLddr (s : State) : Result :=
  .next ((s.loadBlock (-1)).advanceUnless (s.bc - 1 != 0))

/-- `CPI` (rule R290). -/
def execCpi (s : State) : Result :=
  .next ((s.compareBlock 1).advance 2)

/-- `CPIR` (rule R291). -/
def execCpir (s : State) : Result :=
  .next ((s.compareBlock 1).advanceUnless (s.bc - 1 != 0 && s.main.a - s.readByte s.hl != 0))

/-- `CPD` (rule R292). -/
def execCpd (s : State) : Result :=
  .next ((s.compareBlock (-1)).advance 2)

/-- `CPDR` (rule R293). -/
def execCpdr (s : State) : Result :=
  .next ((s.compareBlock (-1)).advanceUnless (s.bc - 1 != 0 && s.main.a - s.readByte s.hl != 0))

end Sys2Proof.Machine
end

