-- ==== Sys2Proof/Machine/General.lean ====
section
/-! DEFINITION. The meanings of the general arithmetic on A and F and CPU control (spec/44_general_cpu_control.md rules R380 to
R391). Each takes
the state with pc at the instruction and leaves pc where the rule says. -/

namespace Sys2Proof.Machine

/-- `DAA` (rule R380). -/
def execDaa (s : State) : Result :=
  .next (((s.setA (daaOf s.main.a s.flags).1).setFlags (daaOf s.main.a s.flags).2).advance 1)

/-- `CPL` (rule R381). -/
def execCpl (s : State) : Result :=
  .next (((s.setA (s.main.a ^^^ 0xFF)).setFlags { s.flags with h := true, n := true }).advance 1)

/-- `NEG` (rule R382). -/
def execNeg (s : State) : Result :=
  .next (((s.setA (sub8 0 s.main.a false).1).setFlags (sub8 0 s.main.a false).2).advance 2)

/-- `CCF` (rule R383). -/
def execCcf (s : State) : Result :=
  .next (((s.drew 1).setFlags { s.flags with h := s.drawnBit 0, n := false, c := !s.flags.c }).advance 1)

/-- `SCF` (rule R384). -/
def execScf (s : State) : Result :=
  .next ((s.setFlags { s.flags with h := false, n := false, c := true }).advance 1)

/-- `NOP` (rule R385). -/
def execNop (s : State) : Result :=
  .next (s.advance 1)

/-- `HALT` (rule R386). pc is already past the HALT. -/
def execHalt (s : State) : Result :=
  .next ((s.setHalted true).advance 1)

/-- `DI` (rule R387). -/
def execDi (s : State) : Result :=
  .next ((s.setIff false false).advance 1)

/-- `EI` (rule R388). -/
def execEi (s : State) : Result :=
  .next (((s.setIff true true).setEiDelay true).advance 1)

/-- `IM 0` (rule R389). -/
def execIm0 (s : State) : Result :=
  .next ((s.setIM .im0).advance 2)

/-- `IM 1` (rule R390). -/
def execIm1 (s : State) : Result :=
  .next ((s.setIM .im1).advance 2)

/-- `IM 2` (rule R391). -/
def execIm2 (s : State) : Result :=
  .next ((s.setIM .im2).advance 2)

end Sys2Proof.Machine
end

