-- ==== Sys2Proof/Machine/Io.lean ====
section
/-! DEFINITION. The meanings of the input and output (spec/49_io.md rules R540 to R551). A repeating form is one iteration a step
(rule R543). Each takes
the state with pc at the instruction and leaves pc where the rule says. -/

namespace Sys2Proof.Machine

/-- `IN A,(n)` (rule R540). -/
def execInAN (n : Byte) (s : State) : Result :=
  .next (((s.afterPortRead (wordOf s.main.a n)).setA (s.portAnswer (wordOf s.main.a n))).advance 2)

/-- `IN r,(C)` (rule R541). The port address is BC as it was before. -/
def execInRC (r : R8) (s : State) : Result :=
  .next ((((s.afterPortRead s.bc).setReg8 r (s.portAnswer s.bc)).setFlags (byteFlags (s.portAnswer s.bc) s.flags)).advance 2)

/-- `INI` (rule R542). -/
def execIni (s : State) : Result :=
  .next ((s.inputBlock 1).advance 2)

/-- `INIR` (rule R543). -/
def execInir (s : State) : Result :=
  .next ((s.inputBlock 1).advanceUnless (s.main.b - 1 != 0))

/-- `IND` (rule R544). -/
def execInd (s : State) : Result :=
  .next ((s.inputBlock (-1)).advance 2)

/-- `INDR` (rule R545). -/
def execIndr (s : State) : Result :=
  .next ((s.inputBlock (-1)).advanceUnless (s.main.b - 1 != 0))

/-- `OUT (n),A` (rule R546). -/
def execOutNA (n : Byte) (s : State) : Result :=
  .next ((s.portWrite (wordOf s.main.a n) s.main.a).advance 2)

/-- `OUT (C),r` (rule R547). -/
def execOutCR (r : R8) (s : State) : Result :=
  .next ((s.portWrite s.bc (s.reg8 r)).advance 2)

/-- `OUTI` (rule R548). -/
def execOuti (s : State) : Result :=
  .next ((s.outputBlock 1).advance 2)

/-- `OTIR` (rule R549). -/
def execOtir (s : State) : Result :=
  .next ((s.outputBlock 1).advanceUnless (s.main.b - 1 != 0))

/-- `OUTD` (rule R550). -/
def execOutd (s : State) : Result :=
  .next ((s.outputBlock (-1)).advance 2)

/-- `OTDR` (rule R551). -/
def execOtdr (s : State) : Result :=
  .next ((s.outputBlock (-1)).advanceUnless (s.main.b - 1 != 0))

end Sys2Proof.Machine
end

