-- ==== Sys2Proof/Machine/Jump.lean ====
section
/-! DEFINITION. The meanings of the jumps, calls and returns (spec/48_jump_call_return.md rules R500 to R514). Each takes
the state with pc at the instruction and leaves pc where the rule says. -/

namespace Sys2Proof.Machine

/-- `JP nn` (rule R500). -/
def execJpNn (nn : Word) (s : State) : Result :=
  .next (s.jump nn)

/-- `JP cc,nn` (rule R501). -/
def execJpCondNn (cc : Cond) (nn : Word) (s : State) : Result :=
  .next (if s.cond cc then s.jump nn else s.advance 3)

/-- `JR e` (rule R502). -/
def execJrE (e : Byte) (s : State) : Result :=
  .next (s.jump (s.relative e))

/-- `JR cc,e` (rule R503). -/
def execJrCondE (cc : Cond) (e : Byte) (s : State) : Result :=
  .next (if s.cond cc then s.jump (s.relative e) else s.advance 2)

/-- `JP (HL)` (rule R504). No memory is read. -/
def execJpHl (s : State) : Result :=
  .next (s.jump s.hl)

/-- `JP (IX)` (rule R505). -/
def execJpIx (s : State) : Result :=
  .next (s.jump s.ix)

/-- `JP (IY)` (rule R506). -/
def execJpIy (s : State) : Result :=
  .next (s.jump s.iy)

/-- `DJNZ e` (rule R507). -/
def execDjnz (e : Byte) (s : State) : Result :=
  let s1 := s.setB (s.main.b - 1)
  .next (if s1.main.b != 0 then s1.jump (s1.relative e) else s1.advance 2)

/-- `CALL nn` (rule R508). -/
def execCallNn (nn : Word) (s : State) : Result :=
  .next (s.call (s.pc + 3) nn)

/-- `CALL cc,nn` (rule R509). -/
def execCallCondNn (cc : Cond) (nn : Word) (s : State) : Result :=
  .next (if s.cond cc then s.call (s.pc + 3) nn else s.advance 3)

/-- `RET` (rule R510). -/
def execRet (s : State) : Result :=
  .next s.returnFrom

/-- `RET cc` (rule R511). -/
def execRetCond (cc : Cond) (s : State) : Result :=
  .next (if s.cond cc then s.returnFrom else s.advance 1)

/-- `RETI` (rule R512). IFF1 and IFF2 stay (spec/92_eei_decisions.md D32). -/
def execReti (s : State) : Result :=
  .next s.returnFrom

/-- `RETN` (rule R513). -/
def execRetn (s : State) : Result :=
  .next (s.returnFrom.setIff s.iff2 s.iff2)

/-- `RST p` (rule R514). -/
def execRst (p : Word) (s : State) : Result :=
  .next (s.call (s.pc + 1) p)

end Sys2Proof.Machine
end

