-- ==== Sys2Proof/Machine/Load16.lean ====
section
/-! DEFINITION. The meanings of the 16-bit loads, PUSH and POP (spec/41_load16_stack.md rules R240 to R259). Each takes
the state with pc at the instruction and leaves pc where the rule says. -/

namespace Sys2Proof.Machine

/-- `LD rr,nn` (rule R240). -/
def execLdPairNn (p : RR) (nn : Word) (s : State) : Result :=
  .next ((s.setPair p nn).advance 3)

/-- `LD IX,nn` (rule R241). -/
def execLdIxNn (nn : Word) (s : State) : Result :=
  .next ((s.setIX nn).advance 4)

/-- `LD IY,nn` (rule R242). -/
def execLdIyNn (nn : Word) (s : State) : Result :=
  .next ((s.setIY nn).advance 4)

/-- `LD HL,(nn)` (rule R243). -/
def execLdHlAtNn (nn : Word) (s : State) : Result :=
  .next (((s.afterReadWord nn).setHL (s.readWord nn)).advance 3)

/-- `LD rr,(nn)` (rule R244). -/
def execLdPairAtNn (p : RR) (nn : Word) (s : State) : Result :=
  .next (((s.afterReadWord nn).setPair p (s.readWord nn)).advance 4)

/-- `LD IX,(nn)` (rule R245). -/
def execLdIxAtNn (nn : Word) (s : State) : Result :=
  .next (((s.afterReadWord nn).setIX (s.readWord nn)).advance 4)

/-- `LD IY,(nn)` (rule R246). -/
def execLdIyAtNn (nn : Word) (s : State) : Result :=
  .next (((s.afterReadWord nn).setIY (s.readWord nn)).advance 4)

/-- `LD (nn),HL` (rule R247). -/
def execLdAtNnHl (nn : Word) (s : State) : Result :=
  .next ((s.writeWord nn s.hl).advance 3)

/-- `LD (nn),rr` (rule R248). -/
def execLdAtNnPair (nn : Word) (p : RR) (s : State) : Result :=
  .next ((s.writeWord nn (s.pair p)).advance 4)

/-- `LD (nn),IX` (rule R249). -/
def execLdAtNnIx (nn : Word) (s : State) : Result :=
  .next ((s.writeWord nn s.ix).advance 4)

/-- `LD (nn),IY` (rule R250). -/
def execLdAtNnIy (nn : Word) (s : State) : Result :=
  .next ((s.writeWord nn s.iy).advance 4)

/-- `LD SP,HL` (rule R251). -/
def execLdSpHl (s : State) : Result :=
  .next ((s.setSP s.hl).advance 1)

/-- `LD SP,IX` (rule R252). -/
def execLdSpIx (s : State) : Result :=
  .next ((s.setSP s.ix).advance 2)

/-- `LD SP,IY` (rule R253). -/
def execLdSpIy (s : State) : Result :=
  .next ((s.setSP s.iy).advance 2)

/-- `PUSH qq` (rule R254). -/
def execPushPair (q : QQ) (s : State) : Result :=
  .next ((s.push16 (s.stackPair q)).advance 1)

/-- `PUSH IX` (rule R255). -/
def execPushIx (s : State) : Result :=
  .next ((s.push16 s.ix).advance 2)

/-- `PUSH IY` (rule R256). -/
def execPushIy (s : State) : Result :=
  .next ((s.push16 s.iy).advance 2)

/-- `POP qq` (rule R257). -/
def execPopPair (q : QQ) (s : State) : Result :=
  .next ((s.afterPop.setStackPair q s.popped).advance 1)

/-- `POP IX` (rule R258). -/
def execPopIx (s : State) : Result :=
  .next ((s.afterPop.setIX s.popped).advance 2)

/-- `POP IY` (rule R259). -/
def execPopIy (s : State) : Result :=
  .next ((s.afterPop.setIY s.popped).advance 2)

end Sys2Proof.Machine
end

