-- ==== Sys2Proof/Machine/Load8.lean ====
section
/-! DEFINITION. The meanings of the 8-bit loads (spec/40_load8.md rules R200 to R220). Each takes
the state with pc at the instruction and leaves pc where the rule says. -/

namespace Sys2Proof.Machine

/-- `LD r,r'` (rule R200). -/
def execLdRR (r r' : R8) (s : State) : Result :=
  .next ((s.setReg8 r (s.reg8 r')).advance 1)

/-- `LD r,n` (rule R201). -/
def execLdRN (r : R8) (n : Byte) (s : State) : Result :=
  .next ((s.setReg8 r n).advance 2)

/-- `LD r,(HL)` (rule R202). -/
def execLdRAtHl (r : R8) (s : State) : Result :=
  .next (((s.afterRead s.hl).setReg8 r (s.readByte s.hl)).advance 1)

/-- `LD (HL),r` (rule R203). -/
def execLdAtHlR (r : R8) (s : State) : Result :=
  .next ((s.writeByte s.hl (s.reg8 r)).advance 1)

/-- `LD (HL),n` (rule R204). -/
def execLdAtHlN (n : Byte) (s : State) : Result :=
  .next ((s.writeByte s.hl n).advance 2)

/-- `LD r,(IX+d)` (rule R205). -/
def execLdRAtIxd (r : R8) (d : Byte) (s : State) : Result :=
  .next (((s.afterRead (s.atIxd d)).setReg8 r (s.readByte (s.atIxd d))).advance 3)

/-- `LD r,(IY+d)` (rule R206). -/
def execLdRAtIyd (r : R8) (d : Byte) (s : State) : Result :=
  .next (((s.afterRead (s.atIyd d)).setReg8 r (s.readByte (s.atIyd d))).advance 3)

/-- `LD (IX+d),r` (rule R207). -/
def execLdAtIxdR (d : Byte) (r : R8) (s : State) : Result :=
  .next ((s.writeByte (s.atIxd d) (s.reg8 r)).advance 3)

/-- `LD (IY+d),r` (rule R208). -/
def execLdAtIydR (d : Byte) (r : R8) (s : State) : Result :=
  .next ((s.writeByte (s.atIyd d) (s.reg8 r)).advance 3)

/-- `LD (IX+d),n` (rule R209). -/
def execLdAtIxdN (d n : Byte) (s : State) : Result :=
  .next ((s.writeByte (s.atIxd d) n).advance 4)

/-- `LD (IY+d),n` (rule R210). -/
def execLdAtIydN (d n : Byte) (s : State) : Result :=
  .next ((s.writeByte (s.atIyd d) n).advance 4)

/-- `LD A,(BC)` (rule R211). -/
def execLdAAtBc (s : State) : Result :=
  .next (((s.afterRead s.bc).setA (s.readByte s.bc)).advance 1)

/-- `LD A,(DE)` (rule R212). -/
def execLdAAtDe (s : State) : Result :=
  .next (((s.afterRead s.de).setA (s.readByte s.de)).advance 1)

/-- `LD A,(nn)` (rule R213). -/
def execLdAAtNn (nn : Word) (s : State) : Result :=
  .next (((s.afterRead nn).setA (s.readByte nn)).advance 3)

/-- `LD (BC),A` (rule R214). -/
def execLdAtBcA (s : State) : Result :=
  .next ((s.writeByte s.bc s.main.a).advance 1)

/-- `LD (DE),A` (rule R215). -/
def execLdAtDeA (s : State) : Result :=
  .next ((s.writeByte s.de s.main.a).advance 1)

/-- `LD (nn),A` (rule R216). -/
def execLdAtNnA (nn : Word) (s : State) : Result :=
  .next ((s.writeByte nn s.main.a).advance 3)

/-- `LD A,I` (rule R217). -/
def execLdAI (s : State) : Result :=
  .next (((s.setA s.i).setFlags (interruptFlags s.i s.iff2 s.flags)).advance 2)

/-- `LD A,R` (rule R218). -/
def execLdARefresh (s : State) : Result :=
  .next (((s.afterReadR.setA s.readR).setFlags (interruptFlags s.readR s.iff2 s.flags)).advance 2)

/-- `LD I,A` (rule R219). -/
def execLdIA (s : State) : Result :=
  .next ((s.setI s.main.a).advance 2)

/-- `LD R,A` (rule R220). -/
def execLdRefreshA (s : State) : Result :=
  .next ((s.setR s.main.a).advance 2)

end Sys2Proof.Machine
end

