-- ==== Sys2Proof/Machine/Rotate.lean ====
section
/-! DEFINITION. The meanings of the rotates and shifts (spec/46_rotate_shift.md rules R424 to R457). Each takes
the state with pc at the instruction and leaves pc where the rule says. -/

namespace Sys2Proof.Machine

/-- `RLCA` (rule R424). -/
def execRlca (s : State) : Result :=
  .next ((s.rotateA .rlc).advance 1)

/-- `RLA` (rule R425). -/
def execRla (s : State) : Result :=
  .next ((s.rotateA .rl).advance 1)

/-- `RRCA` (rule R426). -/
def execRrca (s : State) : Result :=
  .next ((s.rotateA .rrc).advance 1)

/-- `RRA` (rule R427). -/
def execRra (s : State) : Result :=
  .next ((s.rotateA .rr).advance 1)

/-- `RL r` (rule R428). -/
def execRlR (r : R8) (s : State) : Result :=
  .next ((s.updateReg8 r (s.rotated .rl (s.reg8 r))).advance 2)

/-- `RL (HL)` (rule R429). -/
def execRlAtHl (s : State) : Result :=
  .next ((s.updateByte s.hl (s.rotated .rl (s.readByte s.hl))).advance 2)

/-- `RL (IX+d)` (rule R430). -/
def execRlAtIxd (d : Byte) (s : State) : Result :=
  .next ((s.updateByte (s.atIxd d) (s.rotated .rl (s.readByte (s.atIxd d)))).advance 4)

/-- `RL (IY+d)` (rule R431). -/
def execRlAtIyd (d : Byte) (s : State) : Result :=
  .next ((s.updateByte (s.atIyd d) (s.rotated .rl (s.readByte (s.atIyd d)))).advance 4)

/-- `RLC r` (rule R432). -/
def execRlcR (r : R8) (s : State) : Result :=
  .next ((s.updateReg8 r (s.rotated .rlc (s.reg8 r))).advance 2)

/-- `RLC (HL)` (rule R433). -/
def execRlcAtHl (s : State) : Result :=
  .next ((s.updateByte s.hl (s.rotated .rlc (s.readByte s.hl))).advance 2)

/-- `RLC (IX+d)` (rule R434). -/
def execRlcAtIxd (d : Byte) (s : State) : Result :=
  .next ((s.updateByte (s.atIxd d) (s.rotated .rlc (s.readByte (s.atIxd d)))).advance 4)

/-- `RLC (IY+d)` (rule R435). -/
def execRlcAtIyd (d : Byte) (s : State) : Result :=
  .next ((s.updateByte (s.atIyd d) (s.rotated .rlc (s.readByte (s.atIyd d)))).advance 4)

/-- `RR r` (rule R436). -/
def execRrR (r : R8) (s : State) : Result :=
  .next ((s.updateReg8 r (s.rotated .rr (s.reg8 r))).advance 2)

/-- `RR (HL)` (rule R437). -/
def execRrAtHl (s : State) : Result :=
  .next ((s.updateByte s.hl (s.rotated .rr (s.readByte s.hl))).advance 2)

/-- `RR (IX+d)` (rule R438). -/
def execRrAtIxd (d : Byte) (s : State) : Result :=
  .next ((s.updateByte (s.atIxd d) (s.rotated .rr (s.readByte (s.atIxd d)))).advance 4)

/-- `RR (IY+d)` (rule R439). -/
def execRrAtIyd (d : Byte) (s : State) : Result :=
  .next ((s.updateByte (s.atIyd d) (s.rotated .rr (s.readByte (s.atIyd d)))).advance 4)

/-- `RRC r` (rule R440). -/
def execRrcR (r : R8) (s : State) : Result :=
  .next ((s.updateReg8 r (s.rotated .rrc (s.reg8 r))).advance 2)

/-- `RRC (HL)` (rule R441). -/
def execRrcAtHl (s : State) : Result :=
  .next ((s.updateByte s.hl (s.rotated .rrc (s.readByte s.hl))).advance 2)

/-- `RRC (IX+d)` (rule R442). -/
def execRrcAtIxd (d : Byte) (s : State) : Result :=
  .next ((s.updateByte (s.atIxd d) (s.rotated .rrc (s.readByte (s.atIxd d)))).advance 4)

/-- `RRC (IY+d)` (rule R443). -/
def execRrcAtIyd (d : Byte) (s : State) : Result :=
  .next ((s.updateByte (s.atIyd d) (s.rotated .rrc (s.readByte (s.atIyd d)))).advance 4)

/-- `SLA r` (rule R444). -/
def execSlaR (r : R8) (s : State) : Result :=
  .next ((s.updateReg8 r (s.rotated .sla (s.reg8 r))).advance 2)

/-- `SLA (HL)` (rule R445). -/
def execSlaAtHl (s : State) : Result :=
  .next ((s.updateByte s.hl (s.rotated .sla (s.readByte s.hl))).advance 2)

/-- `SLA (IX+d)` (rule R446). -/
def execSlaAtIxd (d : Byte) (s : State) : Result :=
  .next ((s.updateByte (s.atIxd d) (s.rotated .sla (s.readByte (s.atIxd d)))).advance 4)

/-- `SLA (IY+d)` (rule R447). -/
def execSlaAtIyd (d : Byte) (s : State) : Result :=
  .next ((s.updateByte (s.atIyd d) (s.rotated .sla (s.readByte (s.atIyd d)))).advance 4)

/-- `SRA r` (rule R448). -/
def execSraR (r : R8) (s : State) : Result :=
  .next ((s.updateReg8 r (s.rotated .sra (s.reg8 r))).advance 2)

/-- `SRA (HL)` (rule R449). -/
def execSraAtHl (s : State) : Result :=
  .next ((s.updateByte s.hl (s.rotated .sra (s.readByte s.hl))).advance 2)

/-- `SRA (IX+d)` (rule R450). -/
def execSraAtIxd (d : Byte) (s : State) : Result :=
  .next ((s.updateByte (s.atIxd d) (s.rotated .sra (s.readByte (s.atIxd d)))).advance 4)

/-- `SRA (IY+d)` (rule R451). -/
def execSraAtIyd (d : Byte) (s : State) : Result :=
  .next ((s.updateByte (s.atIyd d) (s.rotated .sra (s.readByte (s.atIyd d)))).advance 4)

/-- `SRL r` (rule R452). -/
def execSrlR (r : R8) (s : State) : Result :=
  .next ((s.updateReg8 r (s.rotated .srl (s.reg8 r))).advance 2)

/-- `SRL (HL)` (rule R453). -/
def execSrlAtHl (s : State) : Result :=
  .next ((s.updateByte s.hl (s.rotated .srl (s.readByte s.hl))).advance 2)

/-- `SRL (IX+d)` (rule R454). -/
def execSrlAtIxd (d : Byte) (s : State) : Result :=
  .next ((s.updateByte (s.atIxd d) (s.rotated .srl (s.readByte (s.atIxd d)))).advance 4)

/-- `SRL (IY+d)` (rule R455). -/
def execSrlAtIyd (d : Byte) (s : State) : Result :=
  .next ((s.updateByte (s.atIyd d) (s.rotated .srl (s.readByte (s.atIyd d)))).advance 4)

/-- `RLD` (rule R456). -/
def execRld (s : State) : Result :=
  .next ((((s.rewriteByte s.hl ((s.readByte s.hl <<< 4) ||| (s.main.a &&& 0x0F))).setA
    ((s.main.a &&& 0xF0) ||| (s.readByte s.hl >>> 4))).setFlags
    (byteFlags ((s.main.a &&& 0xF0) ||| (s.readByte s.hl >>> 4)) s.flags)).advance 2)

/-- `RRD` (rule R457). -/
def execRrd (s : State) : Result :=
  .next ((((s.rewriteByte s.hl ((s.main.a <<< 4) ||| (s.readByte s.hl >>> 4))).setA
    ((s.main.a &&& 0xF0) ||| (s.readByte s.hl &&& 0x0F))).setFlags
    (byteFlags ((s.main.a &&& 0xF0) ||| (s.readByte s.hl &&& 0x0F)) s.flags)).advance 2)

end Sys2Proof.Machine
end

