-- ==== Sys2Proof/Machine/Dispatch.lean ====
section
/-! DEFINITION. One arm per instruction, each one call of its meaning. -/

namespace Sys2Proof.Machine

/-- What an instruction does (spec/30_encoding.md rule R127, "execute the entry's rule"). -/
def exec (i : Instr) (s : State) : Host.Outcome State Fault Refusal :=
  match i with
  | .ldRR r t => Sys2Proof.Machine.execLdRR r t s
  | .ldRN r n => Sys2Proof.Machine.execLdRN r n s
  | .ldRAtHl r => Sys2Proof.Machine.execLdRAtHl r s
  | .ldAtHlR r => Sys2Proof.Machine.execLdAtHlR r s
  | .ldAtHlN n => Sys2Proof.Machine.execLdAtHlN n s
  | .ldRAtIxd r d => Sys2Proof.Machine.execLdRAtIxd r d s
  | .ldRAtIyd r d => Sys2Proof.Machine.execLdRAtIyd r d s
  | .ldAtIxdR d r => Sys2Proof.Machine.execLdAtIxdR d r s
  | .ldAtIydR d r => Sys2Proof.Machine.execLdAtIydR d r s
  | .ldAtIxdN d n => Sys2Proof.Machine.execLdAtIxdN d n s
  | .ldAtIydN d n => Sys2Proof.Machine.execLdAtIydN d n s
  | .ldAAtBc => Sys2Proof.Machine.execLdAAtBc s
  | .ldAAtDe => Sys2Proof.Machine.execLdAAtDe s
  | .ldAAtNn nn => Sys2Proof.Machine.execLdAAtNn nn s
  | .ldAtBcA => Sys2Proof.Machine.execLdAtBcA s
  | .ldAtDeA => Sys2Proof.Machine.execLdAtDeA s
  | .ldAtNnA nn => Sys2Proof.Machine.execLdAtNnA nn s
  | .ldAI => Sys2Proof.Machine.execLdAI s
  | .ldARefresh => Sys2Proof.Machine.execLdARefresh s
  | .ldIA => Sys2Proof.Machine.execLdIA s
  | .ldRefreshA => Sys2Proof.Machine.execLdRefreshA s
  | .ldPairNn p nn => Sys2Proof.Machine.execLdPairNn p nn s
  | .ldIxNn nn => Sys2Proof.Machine.execLdIxNn nn s
  | .ldIyNn nn => Sys2Proof.Machine.execLdIyNn nn s
  | .ldHlAtNn nn => Sys2Proof.Machine.execLdHlAtNn nn s
  | .ldPairAtNn p nn => Sys2Proof.Machine.execLdPairAtNn p nn s
  | .ldIxAtNn nn => Sys2Proof.Machine.execLdIxAtNn nn s
  | .ldIyAtNn nn => Sys2Proof.Machine.execLdIyAtNn nn s
  | .ldAtNnHl nn => Sys2Proof.Machine.execLdAtNnHl nn s
  | .ldAtNnPair nn p => Sys2Proof.Machine.execLdAtNnPair nn p s
  | .ldAtNnIx nn => Sys2Proof.Machine.execLdAtNnIx nn s
  | .ldAtNnIy nn => Sys2Proof.Machine.execLdAtNnIy nn s
  | .ldSpHl => Sys2Proof.Machine.execLdSpHl s
  | .ldSpIx => Sys2Proof.Machine.execLdSpIx s
  | .ldSpIy => Sys2Proof.Machine.execLdSpIy s
  | .pushPair q => Sys2Proof.Machine.execPushPair q s
  | .pushIx => Sys2Proof.Machine.execPushIx s
  | .pushIy => Sys2Proof.Machine.execPushIy s
  | .popPair q => Sys2Proof.Machine.execPopPair q s
  | .popIx => Sys2Proof.Machine.execPopIx s
  | .popIy => Sys2Proof.Machine.execPopIy s
  | .exDeHl => Sys2Proof.Machine.execExDeHl s
  | .exAf => Sys2Proof.Machine.execExAf s
  | .exx => Sys2Proof.Machine.execExx s
  | .exAtSpHl => Sys2Proof.Machine.execExAtSpHl s
  | .exAtSpIx => Sys2Proof.Machine.execExAtSpIx s
  | .exAtSpIy => Sys2Proof.Machine.execExAtSpIy s
  | .ldi => Sys2Proof.Machine.execLdi s
  | .ldir => Sys2Proof.Machine.execLdir s
  | .ldd => Sys2Proof.Machine.execLdd s
  | .lddr => Sys2Proof.Machine.execLddr s
  | .cpi => Sys2Proof.Machine.execCpi s
  | .cpir => Sys2Proof.Machine.execCpir s
  | .cpd => Sys2Proof.Machine.execCpd s
  | .cpdr => Sys2Proof.Machine.execCpdr s
  | .adcR r => Sys2Proof.Machine.execAdcR r s
  | .adcN n => Sys2Proof.Machine.execAdcN n s
  | .adcAtHl => Sys2Proof.Machine.execAdcAtHl s
  | .adcAtIxd d => Sys2Proof.Machine.execAdcAtIxd d s
  | .adcAtIyd d => Sys2Proof.Machine.execAdcAtIyd d s
  | .addR r => Sys2Proof.Machine.execAddR r s
  | .addN n => Sys2Proof.Machine.execAddN n s
  | .addAtHl => Sys2Proof.Machine.execAddAtHl s
  | .addAtIxd d => Sys2Proof.Machine.execAddAtIxd d s
  | .addAtIyd d => Sys2Proof.Machine.execAddAtIyd d s
  | .andR r => Sys2Proof.Machine.execAndR r s
  | .andN n => Sys2Proof.Machine.execAndN n s
  | .andAtHl => Sys2Proof.Machine.execAndAtHl s
  | .andAtIxd d => Sys2Proof.Machine.execAndAtIxd d s
  | .andAtIyd d => Sys2Proof.Machine.execAndAtIyd d s
  | .cpR r => Sys2Proof.Machine.execCpR r s
  | .cpN n => Sys2Proof.Machine.execCpN n s
  | .cpAtHl => Sys2Proof.Machine.execCpAtHl s
  | .cpAtIxd d => Sys2Proof.Machine.execCpAtIxd d s
  | .cpAtIyd d => Sys2Proof.Machine.execCpAtIyd d s
  | .orR r => Sys2Proof.Machine.execOrR r s
  | .orN n => Sys2Proof.Machine.execOrN n s
  | .orAtHl => Sys2Proof.Machine.execOrAtHl s
  | .orAtIxd d => Sys2Proof.Machine.execOrAtIxd d s
  | .orAtIyd d => Sys2Proof.Machine.execOrAtIyd d s
  | .sbcR r => Sys2Proof.Machine.execSbcR r s
  | .sbcN n => Sys2Proof.Machine.execSbcN n s
  | .sbcAtHl => Sys2Proof.Machine.execSbcAtHl s
  | .sbcAtIxd d => Sys2Proof.Machine.execSbcAtIxd d s
  | .sbcAtIyd d => Sys2Proof.Machine.execSbcAtIyd d s
  | .subR r => Sys2Proof.Machine.execSubR r s
  | .subN n => Sys2Proof.Machine.execSubN n s
  | .subAtHl => Sys2Proof.Machine.execSubAtHl s
  | .subAtIxd d => Sys2Proof.Machine.execSubAtIxd d s
  | .subAtIyd d => Sys2Proof.Machine.execSubAtIyd d s
  | .xorR r => Sys2Proof.Machine.execXorR r s
  | .xorN n => Sys2Proof.Machine.execXorN n s
  | .xorAtHl => Sys2Proof.Machine.execXorAtHl s
  | .xorAtIxd d => Sys2Proof.Machine.execXorAtIxd d s
  | .xorAtIyd d => Sys2Proof.Machine.execXorAtIyd d s
  | .incR r => Sys2Proof.Machine.execIncR r s
  | .incAtHl => Sys2Proof.Machine.execIncAtHl s
  | .incAtIxd d => Sys2Proof.Machine.execIncAtIxd d s
  | .incAtIyd d => Sys2Proof.Machine.execIncAtIyd d s
  | .decR r => Sys2Proof.Machine.execDecR r s
  | .decAtHl => Sys2Proof.Machine.execDecAtHl s
  | .decAtIxd d => Sys2Proof.Machine.execDecAtIxd d s
  | .decAtIyd d => Sys2Proof.Machine.execDecAtIyd d s
  | .daa => Sys2Proof.Machine.execDaa s
  | .cpl => Sys2Proof.Machine.execCpl s
  | .neg => Sys2Proof.Machine.execNeg s
  | .ccf => Sys2Proof.Machine.execCcf s
  | .scf => Sys2Proof.Machine.execScf s
  | .nop => Sys2Proof.Machine.execNop s
  | .halt => Sys2Proof.Machine.execHalt s
  | .di => Sys2Proof.Machine.execDi s
  | .ei => Sys2Proof.Machine.execEi s
  | .im0 => Sys2Proof.Machine.execIm0 s
  | .im1 => Sys2Proof.Machine.execIm1 s
  | .im2 => Sys2Proof.Machine.execIm2 s
  | .adcHlPair p => Sys2Proof.Machine.execAdcHlPair p s
  | .addHlPair p => Sys2Proof.Machine.execAddHlPair p s
  | .addIxPair p => Sys2Proof.Machine.execAddIxPair p s
  | .addIyPair p => Sys2Proof.Machine.execAddIyPair p s
  | .sbcHlPair p => Sys2Proof.Machine.execSbcHlPair p s
  | .incPair p => Sys2Proof.Machine.execIncPair p s
  | .incIx => Sys2Proof.Machine.execIncIx s
  | .incIy => Sys2Proof.Machine.execIncIy s
  | .decPair p => Sys2Proof.Machine.execDecPair p s
  | .decIx => Sys2Proof.Machine.execDecIx s
  | .decIy => Sys2Proof.Machine.execDecIy s
  | .rlca => Sys2Proof.Machine.execRlca s
  | .rla => Sys2Proof.Machine.execRla s
  | .rrca => Sys2Proof.Machine.execRrca s
  | .rra => Sys2Proof.Machine.execRra s
  | .rlR r => Sys2Proof.Machine.execRlR r s
  | .rlAtHl => Sys2Proof.Machine.execRlAtHl s
  | .rlAtIxd d => Sys2Proof.Machine.execRlAtIxd d s
  | .rlAtIyd d => Sys2Proof.Machine.execRlAtIyd d s
  | .rlcR r => Sys2Proof.Machine.execRlcR r s
  | .rlcAtHl => Sys2Proof.Machine.execRlcAtHl s
  | .rlcAtIxd d => Sys2Proof.Machine.execRlcAtIxd d s
  | .rlcAtIyd d => Sys2Proof.Machine.execRlcAtIyd d s
  | .rrR r => Sys2Proof.Machine.execRrR r s
  | .rrAtHl => Sys2Proof.Machine.execRrAtHl s
  | .rrAtIxd d => Sys2Proof.Machine.execRrAtIxd d s
  | .rrAtIyd d => Sys2Proof.Machine.execRrAtIyd d s
  | .rrcR r => Sys2Proof.Machine.execRrcR r s
  | .rrcAtHl => Sys2Proof.Machine.execRrcAtHl s
  | .rrcAtIxd d => Sys2Proof.Machine.execRrcAtIxd d s
  | .rrcAtIyd d => Sys2Proof.Machine.execRrcAtIyd d s
  | .slaR r => Sys2Proof.Machine.execSlaR r s
  | .slaAtHl => Sys2Proof.Machine.execSlaAtHl s
  | .slaAtIxd d => Sys2Proof.Machine.execSlaAtIxd d s
  | .slaAtIyd d => Sys2Proof.Machine.execSlaAtIyd d s
  | .sraR r => Sys2Proof.Machine.execSraR r s
  | .sraAtHl => Sys2Proof.Machine.execSraAtHl s
  | .sraAtIxd d => Sys2Proof.Machine.execSraAtIxd d s
  | .sraAtIyd d => Sys2Proof.Machine.execSraAtIyd d s
  | .srlR r => Sys2Proof.Machine.execSrlR r s
  | .srlAtHl => Sys2Proof.Machine.execSrlAtHl s
  | .srlAtIxd d => Sys2Proof.Machine.execSrlAtIxd d s
  | .srlAtIyd d => Sys2Proof.Machine.execSrlAtIyd d s
  | .rld => Sys2Proof.Machine.execRld s
  | .rrd => Sys2Proof.Machine.execRrd s
  | .bitR b r => Sys2Proof.Machine.execBitR b r s
  | .bitAtHl b => Sys2Proof.Machine.execBitAtHl b s
  | .bitAtIxd b d => Sys2Proof.Machine.execBitAtIxd b d s
  | .bitAtIyd b d => Sys2Proof.Machine.execBitAtIyd b d s
  | .resR b r => Sys2Proof.Machine.execResR b r s
  | .resAtHl b => Sys2Proof.Machine.execResAtHl b s
  | .resAtIxd b d => Sys2Proof.Machine.execResAtIxd b d s
  | .resAtIyd b d => Sys2Proof.Machine.execResAtIyd b d s
  | .setR b r => Sys2Proof.Machine.execSetR b r s
  | .setAtHl b => Sys2Proof.Machine.execSetAtHl b s
  | .setAtIxd b d => Sys2Proof.Machine.execSetAtIxd b d s
  | .setAtIyd b d => Sys2Proof.Machine.execSetAtIyd b d s
  | .jpNn nn => Sys2Proof.Machine.execJpNn nn s
  | .jpCondNn cc nn => Sys2Proof.Machine.execJpCondNn cc nn s
  | .jrE e => Sys2Proof.Machine.execJrE e s
  | .jrCondE cc e => Sys2Proof.Machine.execJrCondE cc e s
  | .jpHl => Sys2Proof.Machine.execJpHl s
  | .jpIx => Sys2Proof.Machine.execJpIx s
  | .jpIy => Sys2Proof.Machine.execJpIy s
  | .djnz e => Sys2Proof.Machine.execDjnz e s
  | .callNn nn => Sys2Proof.Machine.execCallNn nn s
  | .callCondNn cc nn => Sys2Proof.Machine.execCallCondNn cc nn s
  | .ret => Sys2Proof.Machine.execRet s
  | .retCond cc => Sys2Proof.Machine.execRetCond cc s
  | .reti => Sys2Proof.Machine.execReti s
  | .retn => Sys2Proof.Machine.execRetn s
  | .rst p => Sys2Proof.Machine.execRst p s
  | .inAN n => Sys2Proof.Machine.execInAN n s
  | .inRC r => Sys2Proof.Machine.execInRC r s
  | .ini => Sys2Proof.Machine.execIni s
  | .inir => Sys2Proof.Machine.execInir s
  | .ind => Sys2Proof.Machine.execInd s
  | .indr => Sys2Proof.Machine.execIndr s
  | .outNA n => Sys2Proof.Machine.execOutNA n s
  | .outCR r => Sys2Proof.Machine.execOutCR r s
  | .outi => Sys2Proof.Machine.execOuti s
  | .otir => Sys2Proof.Machine.execOtir s
  | .outd => Sys2Proof.Machine.execOutd s
  | .otdr => Sys2Proof.Machine.execOtdr s

end Sys2Proof.Machine
end

