-- ==== Sys2Proof/Machine/Step.lean ====
section
/-! DEFINITION. One step of the machine (spec/60_exceptions.md rule R602), and the placing of one instruction where the
next step fetches. -/

namespace Sys2Proof.Machine

/-- One step (rule R602), the tests in the order of rule R610: reset, the non-maskable interrupt, the maskable
interrupt, the halt state, else one instruction. -/
def step (s : State) : Host.Outcome State Fault Refusal :=
  if s.sampledPins.reset then .next s.sample.cpuReset
  else if s.sample.nmiPending then .next s.sample.acceptNmi
  else if s.sample.takesInt s.sampledPins then s.sample.acceptInt s.sampledPins.intBus
  else if s.sample.halted then .next s.sample.idle
  else
    match s.sample.fetched with
    | .ok i => exec i (s.sample.beginInstr i)
    | .error why => .refused (.unlistedEncoding why)

/-- The instruction whose bits are `w` stored at PC, zero bytes after it up to four, and the next step made free to
fetch it. Log entry 14 says how a program comes to run. -/
def State.withFetchWord (s : State) (nbits w : Nat) : State :=
  (s.quietNext.clearMapAt s.pc).placeBytes s.pc (tableWindow nbits w)

end Sys2Proof.Machine
end

