-- ==== Sys2Proof/Safety.lean ====
section
/-! DEFINITION. The terms the claims use: what an instruction leaves unchanged, what a store leaves in memory, the flag
rules of the spec in plain integers and bits, the invariant of a run. -/

namespace Sys2Proof

/-- The registers a pair of table `rr` is made of (spec/10_state.md rule R31). -/
def RR.halves : RR → List R8
  | .bc => [.b, .c] | .de => [.d, .e] | .hl => [.h, .l] | .sp => []

/-- The registers of table `r8` a pair of table `qq` is made of (rule R31). -/
def QQ.halves : QQ → List R8
  | .bc => [.b, .c] | .de => [.d, .e] | .hl => [.h, .l] | .af => [.a]

end Sys2Proof

namespace Sys2Proof.Machine

/-! ## Accesses to memory and ports -/

/-- One access to memory or to a port, as the rules write them (spec/00_scope.md rule R11). -/
inductive Access where
  /-- `MemRead(a, 1)`. -/
  | read (a : Word)
  /-- `MemWrite(a, 1, v)`. -/
  | write (a : Word) (v : Byte)
  /-- `IoRead(port)`. -/
  | input (port : Word)
  /-- `IoWrite(port, v)`. -/
  | output (port : Word) (v : Byte)
  deriving DecidableEq, Repr

/-- What one access leaves. -/
def State.access (s : State) : Access → State
  | .read a => s.afterRead a
  | .write a v => s.writeByte a v
  | .input port => s.afterPortRead port
  | .output port v => s.portWrite port v

/-- What some accesses, in this order, leave (spec/20_memory.md rules R87, R99). -/
def State.accesses (s : State) (bus : List Access) : State := bus.foldl State.access s

/-- The two reads of a word at `a` (rule R83). -/
def wordReads (a : Word) : List Access := [.read a, .read (a + 1)]

/-- The two writes of a word at `a`, low byte first (rules R82, R83). Of `EX (SP),HL/IX/IY` no rule gives this order:
DESIGN CHOICE, log entry 25. -/
def wordWrites (a w : Word) : List Access := [.write a (loByte w), .write (a + 1) (hiByte w)]

/-- The two writes of a push (rule R95). -/
def pushWrites (sp w : Word) : List Access := [.write (sp - 1) (hiByte w), .write (sp - 2) (loByte w)]

/-- The reads of `n` bytes from `a` on (rule R89). -/
def byteReads (a : Word) (n : Nat) : List Access := (List.range n).map (fun k => .read (a + BitVec.ofNat 16 k))

/-- What reads of the addresses from `a` on give, one after the other (rule R89). -/
def State.ReadsBytes : State → Word → List Byte → Prop
  | _, _, [] => True
  | s, a, v :: rest => s.readByte a = v ∧ (s.afterRead a).ReadsBytes (a + 1) rest

/-! ## What an instruction may write, and what stays -/

/-- The pieces of state a statement lets an instruction write, and the accesses `bus` it makes, each once and in this
order. What is not named stays. -/
structure Writes where
  regs : List R8 := []
  flags : Bool := false
  alt : Bool := false
  ix : Bool := false
  iy : Bool := false
  sp : Bool := false
  i : Bool := false
  r : Bool := false
  iff : Bool := false
  im : Bool := false
  halted : Bool := false
  eiDelay : Bool := false
  nmiPending : Bool := false
  pins : Bool := false
  mem : List Word := []
  bus : List Access := []
  deriving DecidableEq, Repr

/-- From `s` to `t` nothing changed but what `w` names, pc, and the model's own counter of draws. Every byte of memory
outside `w.mem` is as before, the RAM cell and what `readByte` gives; a device may answer another byte only where the
platform saw an access. What the platform saw, and the port answers used up, are those of the accesses `w.bus`; the
record of them has the form of log entries 4, 9 and 10. -/
def Frame (w : Writes) (s t : State) : Prop :=
  (∀ r, r ∉ w.regs → t.reg8 r = s.reg8 r) ∧
  (w.flags = false → t.main.f = s.main.f) ∧
  (w.alt = false → t.alt = s.alt) ∧
  (w.ix = false → t.ix = s.ix) ∧
  (w.iy = false → t.iy = s.iy) ∧
  (w.sp = false → t.sp = s.sp) ∧
  (w.i = false → t.i = s.i) ∧
  (w.r = false → t.r = s.r) ∧
  (w.iff = false → t.iff1 = s.iff1 ∧ t.iff2 = s.iff2) ∧
  (w.im = false → t.im = s.im) ∧
  (w.halted = false → t.halted = s.halted) ∧
  (w.eiDelay = false → t.eiDelay = s.eiDelay) ∧
  (w.nmiPending = false → t.nmiPending = s.nmiPending) ∧
  (w.pins = false → t.pins = s.pins) ∧
  (∀ x, x ∉ w.mem → t.cell x = s.cell x) ∧
  (∀ x, x ∉ w.mem → s.isDevice x = false ∨ t.ioTrace = s.ioTrace → t.readByte x = s.readByte x) ∧
  t.ioTrace = (s.accesses w.bus).ioTrace ∧ t.portIn = (s.accesses w.bus).portIn ∧
  t.memMap = s.memMap ∧ t.rModel = s.rModel ∧ t.blockIoFlags = s.blockIoFlags

/-- The instruction has these bytes, and from `s` it runs to a next state with the property `post`. -/
def Runs (i : Instr) (bytes : List Byte) (s : State) (post : State → Prop) : Prop :=
  encode i = bytes ∧ ∃ t, exec i s = .next t ∧ post t

/-- A byte stored at `a`: RAM reads it afterwards (spec/20_memory.md rules R80, R90). What a store does where the
address is not RAM is `MemMap`'s, and no part of this. -/
def Stored (s t : State) (a : Word) (v : Byte) : Prop := s.isRam a = true → t.readByte a = v

/-- A word stored at `a`: low byte at `a`, high byte at `a + 1` (rule R82). -/
def StoredWord (s t : State) (a : Word) (w : Word) : Prop :=
  Stored s t a (BitVec.ofNat 8 (w.toNat % 256)) ∧ Stored s t (a + 1) (BitVec.ofNat 8 (w.toNat / 256))

/-- A word pushed (rule R95): SP lower by two, the high byte at SP - 1, the low byte at SP - 2. -/
def Pushed (s t : State) (w : Word) : Prop :=
  t.sp = s.sp - 2 ∧ Stored s t (s.sp - 1) (BitVec.ofNat 8 (w.toNat / 256)) ∧
    Stored s t (s.sp - 2) (BitVec.ofNat 8 (w.toNat % 256))

/-- The two cells a push writes. -/
def stackCells (s : State) : List Word := [s.sp - 1, s.sp - 2]

/-- The word that a read of two bytes gives, low byte first (rules R82, R83). -/
def HoldsWord (s : State) (a : Word) (w : Word) : Prop :=
  w.toNat = (s.readByte a).toNat + 256 * ((s.afterRead a).readByte (a + 1)).toNat

/-- A bit is a draw made between `s` and `t` (spec/00_scope.md rule R13, `draw_1()`): no value is known of it. The
draws are numbered as log entry 3 says. -/
def Drawn (s t : State) (b : Bool) : Prop := ∃ k, s.draws ≤ k ∧ k < t.draws ∧ b = Config.freeBit k

/-- `n` opcode fetches counted in R: its low seven bits rise by `n`, bit 7 stays (spec/93_implementation_defined.md U5,
log entry 6). -/
def RefreshCounted (s t : State) (n : Nat) : Prop :=
  t.r.toNat / 128 = s.r.toNat / 128 ∧ t.r.toNat % 128 = (s.r.toNat + n) % 128

/-- Bits 5 and 3 of F are draws (spec/10_state.md rule R39). -/
def OpenBits (s t : State) : Prop := Drawn s t (t.main.f.getLsbD 5) ∧ Drawn s t (t.main.f.getLsbD 3)

/-! ## The operand forms of the 8-bit operations -/

/-- The five operand forms of an accumulator operation, with the bytes of each from its operation code `y`
(spec/30_encoding.md rules R123, R128, R131). `post` is told the operand, the length and the accesses of the form. -/
def ForFiveForms (y : BitVec 3) (onR : R8 → Instr) (onN : Byte → Instr) (onHl : Instr) (onIx onIy : Byte → Instr)
    (s : State) (post : Byte → Word → List Access → State → Prop) : Prop :=
  (∀ r, Runs (onR r) [opByte 2 y r.code] s (post (s.reg8 r) 1 [])) ∧
  (∀ n, Runs (onN n) [opByte 3 y 6, n] s (post n 2 [])) ∧
  Runs onHl [opByte 2 y 6] s (post (s.readByte s.hl) 1 [.read s.hl]) ∧
  (∀ d, Runs (onIx d) [0xDD, opByte 2 y 6, d] s (post (s.readByte (s.atIxd d)) 3 [.read (s.atIxd d)])) ∧
  (∀ d, Runs (onIy d) [0xFD, opByte 2 y 6, d] s (post (s.readByte (s.atIyd d)) 3 [.read (s.atIyd d)]))

/-- The byte of a CB-page operation on `(HL)`, `(IX+d)` or `(IY+d)` and on a register, as bits 7:6 and 5:3
(spec/46_rotate_shift.md rule R423). -/
def ForCbForms (x : BitVec 2) (y : BitVec 3) (onR : R8 → Instr) (onHl : Instr) (onIx onIy : Byte → Instr)
    (s : State) (onReg : R8 → State → Prop) (onMem : Word → Word → State → Prop) : Prop :=
  (∀ r, Runs (onR r) [0xCB, opByte x y r.code] s (onReg r)) ∧
  Runs onHl [0xCB, opByte x y 6] s (onMem s.hl 2) ∧
  (∀ d, Runs (onIx d) [0xDD, 0xCB, d, opByte x y 6] s (onMem (s.atIxd d) 4)) ∧
  (∀ d, Runs (onIy d) [0xFD, 0xCB, d, opByte x y 6] s (onMem (s.atIyd d) 4))

/-! ## The flag rules in integers and bits -/

/-- How many bits of a byte are 1. -/
def ones (v : Byte) : Nat := ((List.range 8).filter (fun k => v.getLsbD k)).length

/-- S and Z of a byte (spec/10_state.md rule R38). -/
def SignZero (v : Byte) (fl : Flags) : Prop := (fl.s = true ↔ 128 ≤ v.toNat) ∧ (fl.z = true ↔ v = 0)

/-- The parity reading of P/V (rule R38). -/
def ParityOf (v : Byte) (fl : Flags) : Prop := fl.pv = true ↔ ones v % 2 = 0

/-- `add8(a, b, cin)` (spec/43_alu8.md rule R320): P/V is set where the signed sum lies outside -128 to +127. -/
def Sum8 (a b : Byte) (cin : Bool) (res : Byte) (fl : Flags) : Prop :=
  res.toNat = (a.toNat + b.toNat + cin.toNat) % 256 ∧ SignZero res fl ∧
  (fl.h = true ↔ 15 < a.toNat % 16 + b.toNat % 16 + cin.toNat) ∧
  (fl.pv = true ↔ a.toInt + b.toInt + cin.toNat < -128 ∨ 127 < a.toInt + b.toInt + cin.toNat) ∧
  fl.n = false ∧ (fl.c = true ↔ 255 < a.toNat + b.toNat + cin.toNat)

/-- `sub8(a, b, cin)` (rule R321): P/V is set where the signed difference lies outside -128 to +127. -/
def Diff8 (a b : Byte) (cin : Bool) (res : Byte) (fl : Flags) : Prop :=
  (res.toNat + b.toNat + cin.toNat) % 256 = a.toNat ∧ SignZero res fl ∧
  (fl.h = true ↔ a.toNat % 16 < b.toNat % 16 + cin.toNat) ∧
  (fl.pv = true ↔ a.toInt - b.toInt - cin.toNat < -128 ∨ 127 < a.toInt - b.toInt - cin.toNat) ∧
  fl.n = true ∧ (fl.c = true ↔ a.toNat < b.toNat + cin.toNat)

/-- `logic8(res, h)` (rule R322). -/
def Logic8 (res : Byte) (h : Bool) (fl : Flags) : Prop :=
  SignZero res fl ∧ fl.h = h ∧ ParityOf res fl ∧ fl.n = false ∧ fl.c = false

/-- `inc8(v)` (rule R323), C as before. -/
def Inc8 (v : Byte) (old : Flags) (res : Byte) (fl : Flags) : Prop :=
  res.toNat = (v.toNat + 1) % 256 ∧ SignZero res fl ∧ (fl.h = true ↔ v.toNat % 16 = 15) ∧
  (fl.pv = true ↔ v = 0x7F) ∧ fl.n = false ∧ fl.c = old.c

/-- `dec8(v)` (rule R323), C as before. -/
def Dec8 (v : Byte) (old : Flags) (res : Byte) (fl : Flags) : Prop :=
  (res.toNat + 1) % 256 = v.toNat ∧ SignZero res fl ∧ (fl.h = true ↔ v.toNat % 16 = 0) ∧
  (fl.pv = true ↔ v = 0x80) ∧ fl.n = true ∧ fl.c = old.c

/-- `add16(a, b)` (spec/45_alu16.md rule R400): S, Z and P/V as before. -/
def Sum16 (a b : Word) (old : Flags) (res : Word) (fl : Flags) : Prop :=
  res.toNat = (a.toNat + b.toNat) % 65536 ∧ fl.s = old.s ∧ fl.z = old.z ∧ fl.pv = old.pv ∧
  (fl.h = true ↔ 4095 < a.toNat % 4096 + b.toNat % 4096) ∧ fl.n = false ∧
  (fl.c = true ↔ 65535 < a.toNat + b.toNat)

/-- `adc16(a, b, cin)` (rule R401): P/V is set where the signed sum does not fit 16 bits. -/
def SumCarry16 (a b : Word) (cin : Bool) (res : Word) (fl : Flags) : Prop :=
  res.toNat = (a.toNat + b.toNat + cin.toNat) % 65536 ∧ (fl.s = true ↔ 32768 ≤ res.toNat) ∧ (fl.z = true ↔ res = 0) ∧
  (fl.h = true ↔ 4095 < a.toNat % 4096 + b.toNat % 4096 + cin.toNat) ∧
  (fl.pv = true ↔ a.toInt + b.toInt + cin.toNat < -32768 ∨ 32767 < a.toInt + b.toInt + cin.toNat) ∧
  fl.n = false ∧ (fl.c = true ↔ 65535 < a.toNat + b.toNat + cin.toNat)

/-- `sbc16(a, b, cin)` (rule R401): P/V is set where the signed difference does not fit 16 bits. -/
def DiffCarry16 (a b : Word) (cin : Bool) (res : Word) (fl : Flags) : Prop :=
  (res.toNat + b.toNat + cin.toNat) % 65536 = a.toNat ∧ (fl.s = true ↔ 32768 ≤ res.toNat) ∧ (fl.z = true ↔ res = 0) ∧
  (fl.h = true ↔ a.toNat % 4096 < b.toNat % 4096 + cin.toNat) ∧
  (fl.pv = true ↔ a.toInt - b.toInt - cin.toNat < -32768 ∨ 32767 < a.toInt - b.toInt - cin.toNat) ∧
  fl.n = true ∧ (fl.c = true ↔ a.toNat < b.toNat + cin.toNat)

/-- `rot(kind, v, cin)` bit by bit (spec/46_rotate_shift.md rule R420). -/
def Moved (kind : RotKind) (v : Byte) (cin : Bool) (res : Byte) (cout : Bool) : Prop :=
  match kind with
  | .rlc => (∀ k, k < 8 → res.getLsbD k = v.getLsbD ((k + 7) % 8)) ∧ cout = v.getLsbD 7
  | .rrc => (∀ k, k < 8 → res.getLsbD k = v.getLsbD ((k + 1) % 8)) ∧ cout = v.getLsbD 0
  | .rl => (∀ k, k < 8 → res.getLsbD k = if k = 0 then cin else v.getLsbD (k - 1)) ∧ cout = v.getLsbD 7
  | .rr => (∀ k, k < 8 → res.getLsbD k = if k = 7 then cin else v.getLsbD (k + 1)) ∧ cout = v.getLsbD 0
  | .sla => (∀ k, k < 8 → res.getLsbD k = if k = 0 then false else v.getLsbD (k - 1)) ∧ cout = v.getLsbD 7
  | .sra => (∀ k, k < 8 → res.getLsbD k = if k = 7 then v.getLsbD 7 else v.getLsbD (k + 1)) ∧ cout = v.getLsbD 0
  | .srl => (∀ k, k < 8 → res.getLsbD k = if k = 7 then false else v.getLsbD (k + 1)) ∧ cout = v.getLsbD 0

/-- A CB-page rotate or shift with its flags (rules R420, R421). -/
def RotatedTo (kind : RotKind) (v : Byte) (old : Flags) (res : Byte) (fl : Flags) : Prop :=
  Moved kind v old.c res fl.c ∧ SignZero res fl ∧ fl.h = false ∧ ParityOf res fl ∧ fl.n = false

/-- One row of the source's DAA table (spec/44_general_cpu_control.md rule R380): N, C, the ranges of the high and low
digit, H, the number added, C afterwards. -/
structure DaaRow where
  n : Bool
  c : Bool
  highFrom : Nat
  highTo : Nat
  h : Bool
  lowFrom : Nat
  lowTo : Nat
  added : Nat
  cout : Bool
  deriving DecidableEq, Repr

/-- The thirteen rows of rule R380. -/
def daaTable : List DaaRow :=
  [⟨false, false, 0x0, 0x9, false, 0x0, 0x9, 0x00, false⟩, ⟨false, false, 0x0, 0x8, false, 0xA, 0xF, 0x06, false⟩,
   ⟨false, false, 0x0, 0x9, true, 0x0, 0x3, 0x06, false⟩, ⟨false, false, 0xA, 0xF, false, 0x0, 0x9, 0x60, true⟩,
   ⟨false, false, 0x9, 0xF, false, 0xA, 0xF, 0x66, true⟩, ⟨false, false, 0xA, 0xF, true, 0x0, 0x3, 0x66, true⟩,
   ⟨false, true, 0x0, 0x2, false, 0x0, 0x9, 0x60, true⟩, ⟨false, true, 0x0, 0x2, false, 0xA, 0xF, 0x66, true⟩,
   ⟨false, true, 0x0, 0x3, true, 0x0, 0x3, 0x66, true⟩, ⟨true, false, 0x0, 0x9, false, 0x0, 0x9, 0x00, false⟩,
   ⟨true, false, 0x0, 0x8, true, 0x6, 0xF, 0xFA, false⟩, ⟨true, true, 0x7, 0xF, false, 0x0, 0x9, 0xA0, true⟩,
   ⟨true, true, 0x6, 0xF, true, 0x6, 0xF, 0x9A, true⟩]

/-- A row speaks of this A and these flags. -/
def DaaRow.fits (row : DaaRow) (a : Byte) (fl : Flags) : Prop :=
  fl.n = row.n ∧ fl.c = row.c ∧ fl.h = row.h ∧ row.highFrom ≤ a.toNat / 16 ∧ a.toNat / 16 ≤ row.highTo ∧
    row.lowFrom ≤ a.toNat % 16 ∧ a.toNat % 16 ≤ row.lowTo

/-! ## Runs -/

/-- What holds at every instruction boundary after reset: the cells keep their canonical form; IFF1 = 1 implies
IFF2 = 1 (spec/60_exceptions.md rule R603); the EI delay is pending only while interrupts are enabled (rule R604); a
halted CPU has no EI delay pending (rule R611). -/
def State.Inv (s : State) : Prop :=
  Memory.wf s.mem = true ∧ (s.iff1 = true → s.iff2 = true) ∧ (s.eiDelay = true → s.iff1 = true) ∧
    (s.halted = true → s.eiDelay = false)

/-- The step begins with an instruction: no reset, no interrupt accepted, not halted (rule R602). -/
def State.Executes (s : State) : Prop :=
  s.sampledPins.reset = false ∧ (s.nmiPending = false ∧ s.sampledPins.nmiEdge = false) ∧
    ¬ (s.sampledPins.intLine = true ∧ s.iff1 = true ∧ s.eiDelay = false) ∧ s.halted = false

/-- The opcode values of a list of ranges, ends included. -/
def inRanges (op : Byte) (ranges : List (Nat × Nat)) : Prop := ∃ g ∈ ranges, g.1 ≤ op.toNat ∧ op.toNat ≤ g.2

/-- The second bytes after EDH that rule R133 of spec/30_encoding.md lists. -/
def unlistedED : List (Nat × Nat) :=
  [(0x00, 0x3F), (0x4C, 0x4C), (0x4E, 0x4E), (0x54, 0x55), (0x5C, 0x5D), (0x64, 0x66), (0x6C, 0x6E), (0x70, 0x71),
   (0x74, 0x77), (0x7C, 0x9F), (0xA4, 0xA7), (0xAC, 0xAF), (0xB4, 0xB7), (0xBC, 0xFF)]

/-- The second bytes after DDH or FDH that rule R133 lists. -/
def unlistedXY : List (Nat × Nat) :=
  [(0x00, 0x08), (0x0A, 0x18), (0x1A, 0x20), (0x24, 0x28), (0x2C, 0x33), (0x37, 0x38), (0x3A, 0x45), (0x47, 0x4D),
   (0x4F, 0x55), (0x57, 0x5D), (0x5F, 0x65), (0x67, 0x6D), (0x6F, 0x6F), (0x76, 0x76), (0x78, 0x7D), (0x7F, 0x85),
   (0x87, 0x8D), (0x8F, 0x95), (0x97, 0x9D), (0x9F, 0xA5), (0xA7, 0xAD), (0xAF, 0xB5), (0xB7, 0xBD), (0xBF, 0xCA),
   (0xCC, 0xE0), (0xE2, 0xE2), (0xE4, 0xE4), (0xE6, 0xE8), (0xEA, 0xF8), (0xFA, 0xFF)]

end Sys2Proof.Machine
end

