-- ==== Sys2Proof/Certificates/Slice0/Obligations.lean ====
section
/-! DEFINITION. The statements for the provers, each from the rules of spec/ that its entry in OBLIGATIONS.json cites.
Every memory read in them goes through `readByte`; `Frame` says what an instruction leaves unchanged. -/

section Statements

open Sys2Proof Sys2Proof.Machine

/-- Decoding the encoding of any well-formed instruction gives it back. From spec/30_encoding.md sections 2, 3 and 5,
spec/opcode_table.json. -/
def Obligations.DecodeEncodeRoundTrip : Prop :=
  ∀ (i : Instr) (rest : List Byte), WellFormed i = true → decode (encode i ++ rest) = .ok (i, rest)

/-- Whatever decodes is well formed, and the bytes read are exactly its encoding. From spec/30_encoding.md sections 5,
6 and 8, spec/opcode_table.json. -/
def Obligations.DecodedBytesAreTheEncoding : Prop :=
  ∀ (bs : List Byte) (i : Instr) (rest : List Byte), decode bs = .ok (i, rest) →
    WellFormed i = true ∧ bs = encode i ++ rest

/-- A step whose bytes at pc are an unlisted encoding is refused by name, page by page. Rules R133. -/
def Obligations.UnlistedEncodingsAreRefused : Prop :=
  ∀ (s : State) (d op : Byte), s.Executes →
    (s.ReadsBytes s.pc [0xCB, op] → inRanges op [(0x30, 0x37)] →
      step s = .refused (.unlistedEncoding (.unlisted .cb op))) ∧
    (s.ReadsBytes s.pc [0xED, op] → inRanges op unlistedED →
      step s = .refused (.unlistedEncoding (.unlisted .ed op))) ∧
    (s.ReadsBytes s.pc [0xDD, op] → inRanges op unlistedXY →
      step s = .refused (.unlistedEncoding (.unlisted (.index .ix) op))) ∧
    (s.ReadsBytes s.pc [0xFD, op] → inRanges op unlistedXY →
      step s = .refused (.unlistedEncoding (.unlisted (.index .iy) op))) ∧
    (s.ReadsBytes s.pc [0xDD, 0xCB, d, op] → (op = 0x36 ∨ op.toNat % 8 ≠ 6) →
      step s = .refused (.unlistedEncoding (.unlisted (.indexBit .ix) op))) ∧
    (s.ReadsBytes s.pc [0xFD, 0xCB, d, op] → (op = 0x36 ∨ op.toNat % 8 ≠ 6) →
      step s = .refused (.unlistedEncoding (.unlisted (.indexBit .iy) op)))

/-- Nine instructions, one for each kind of page and operand order, decode from the bytes of the table. From
spec/30_encoding.md sections 3 and 5, spec/opcode_table.json. -/
def Obligations.EncodingsOfTheTable : Prop :=
  decode [0x41] = .ok (.ldRR .b .c, []) ∧
  decode [0xDD, 0x36, 0x05, 0x99] = .ok (.ldAtIxdN 0x05 0x99, []) ∧
  decode [0x01, 0x34, 0x12] = .ok (.ldPairNn .bc 0x1234, []) ∧
  decode [0x20, 0xFA] = .ok (.jrCondE .nz 0xFA, []) ∧
  decode [0xFF] = .ok (.rst 0x0038, []) ∧
  decode [0xED, 0x50] = .ok (.inRC .d, []) ∧
  decode [0xDD, 0xCB, 0x0A, 0x06] = .ok (.rlcAtIxd 0x0A, []) ∧
  decode [0xFD, 0xCB, 0x04, 0x66] = .ok (.bitAtIyd 4 0x04, []) ∧
  decode [0xED, 0x72] = .ok (.sbcHlPair .sp, [])

/-- A step runs the instruction fetched at pc, on the state with its inputs taken, its bytes read and ei_delay
cleared. From spec/60_exceptions.md section 2, spec/30_encoding.md section 5, spec/20_memory.md section 4. -/
def Obligations.StepRunsDecodedInstruction : Prop :=
  ∀ (s : State) (i : Instr), s.Executes → WellFormed i = true → s.ReadsBytes s.pc (encode i) →
    ∃ u, step s = exec i u ∧ u.pc = s.pc ∧ u.eiDelay = false ∧ u.pins = s.pins.tail ∧ u.main = s.main ∧
      u.mem = s.mem ∧ u.draws = s.draws ∧ (s.rModel = .draw → u.r = s.r) ∧
      Frame { r := true, eiDelay := true, pins := true, bus := byteReads s.pc (encode i).length } s u

/-- Model choice of log entry 6: under R_MODEL = m1_count R counts opcode fetches in its low seven bits. From
spec/93_implementation_defined.md U5, spec/10_state.md section 5 (R44). -/
def Obligations.RefreshRegisterCounts : Prop :=
  ∀ s : State, s.rModel = .m1Count →
    (∀ i, s.Executes → WellFormed i = true → s.ReadsBytes s.pc (encode i) →
      ∃ u, step s = exec i u ∧
        RefreshCounted s u (if (encode i).head? ∈ [some 0xCB, some 0xED, some 0xDD, some 0xFD] then 2 else 1)) ∧
    (∀ t, s.sampledPins.reset = false → step s = .next t →
      (s.nmiPending = true ∨ s.sampledPins.nmiEdge = true) ∨
        (s.sampledPins.intLine = true ∧ s.iff1 = true ∧ s.eiDelay = false) ∨ s.halted = true →
      RefreshCounted s t 1)

/-- Every instruction runs to a next state in every state, and no step faults. Rules R600. -/
def Obligations.EveryInstructionCompletes : Prop :=
  (∀ (i : Instr) (s : State), ∃ t, exec i s = .next t) ∧ ∀ (s : State) (f : Fault), step s ≠ .fault f

/-- A step is refused only for an unlisted encoding or for what a device supplied in mode 0. From spec/00_scope.md
section 6 (R14), spec/60_exceptions.md section 3, spec/30_encoding.md section 6. -/
def Obligations.StepIsRefusedOnlyForTwoReasons : Prop :=
  ∀ (s : State) (r : Refusal), step s = .refused r →
    (∃ page op, r = .unlistedEncoding (.unlisted page op)) ∨ (∃ b, r = .modeZeroSupplied b ∧ s.im = .im0)

/-- A step with the reset input active leaves every register as the reset rule says and memory unchanged. From R700,
R701, spec/92_eei_decisions.md D9, D37. That the unspecified registers are draws made by this step is log entry 3, and
what stays besides memory is log entry 8: both are choices of the model. -/
def Obligations.ResetStepRestoresResetState : Prop :=
  ∀ s : State, s.sampledPins.reset = true → ∃ t, step s = .next t ∧
    t.pc = 0x0000 ∧ t.iff1 = false ∧ t.iff2 = false ∧ t.im = .im0 ∧ t.i = 0x00 ∧ t.r = 0x00 ∧
    t.halted = false ∧ t.eiDelay = false ∧ t.nmiPending = false ∧
    (∃ (m a : R8 → Nat) (mf af kx ky ks : Nat),
      (∀ r, t.reg8 r = Config.freeByte (m r) ∧ t.alt.get r = Config.freeByte (a r)) ∧
      t.main.f = Config.freeByte mf ∧ t.alt.f = Config.freeByte af ∧
      t.ix = Config.freeWord kx ∧ t.iy = Config.freeWord ky ∧ t.sp = Config.freeWord ks ∧
      (let used := [R8.a, .b, .c, .d, .e, .h, .l].map m ++ [R8.a, .b, .c, .d, .e, .h, .l].map a ++ [mf, af, kx, ky, ks]
       used.Nodup ∧ ∀ k ∈ used, s.draws ≤ k ∧ k < t.draws)) ∧
    t.mem = s.mem ∧ t.memMap = s.memMap ∧ t.pins = s.pins.tail ∧ t.portIn = s.portIn ∧ t.ioTrace = s.ioTrace ∧
    t.rModel = s.rModel ∧ t.blockIoFlags = s.blockIoFlags

/-- The state after reset has the values rule R701 states. From spec/70_reset_and_hazards.md section 1. -/
def Obligations.ResetStateAsTheRuleSays : Prop :=
  State.reset.pc = 0x0000 ∧ State.reset.iff1 = false ∧ State.reset.iff2 = false ∧ State.reset.im = .im0 ∧
    State.reset.i = 0x00 ∧ State.reset.r = 0x00 ∧ State.reset.halted = false ∧ State.reset.eiDelay = false ∧
    State.reset.nmiPending = false

/-- A step with a non-maskable request and no reset pushes pc and goes to 0066H, IFF2 kept. Rules R609. -/
def Obligations.NonMaskableInterruptEntry : Prop :=
  ∀ s : State, s.sampledPins.reset = false → (s.nmiPending = true ∨ s.sampledPins.nmiEdge = true) →
    ∃ t, step s = .next t ∧ t.pc = 0x0066 ∧ t.nmiPending = false ∧ t.halted = false ∧ t.eiDelay = false ∧
      t.iff1 = false ∧ t.iff2 = s.iff2 ∧ Pushed s t s.pc ∧ (s.rModel = .draw → t.r = s.r) ∧
      Frame { sp := true, r := true, iff := true, halted := true, eiDelay := true, nmiPending := true, pins := true,
              mem := stackCells s, bus := pushWrites s.sp s.pc } s t

/-- A maskable interrupt accepted in mode 1 pushes pc, clears both flip-flops and goes to 0038H. Rules R607. -/
def Obligations.MaskableInterruptModeOne : Prop :=
  ∀ s : State, s.sampledPins.reset = false → s.nmiPending = false → s.sampledPins.nmiEdge = false →
    s.sampledPins.intLine = true → s.iff1 = true → s.eiDelay = false → s.im = .im1 →
    ∃ t, step s = .next t ∧ t.pc = 0x0038 ∧ t.halted = false ∧ t.iff1 = false ∧ t.iff2 = false ∧ Pushed s t s.pc ∧
      (s.rModel = .draw → t.r = s.r) ∧
      Frame { sp := true, r := true, iff := true, halted := true, pins := true, mem := stackCells s,
              bus := pushWrites s.sp s.pc } s t

/-- A maskable interrupt accepted in mode 2 pushes pc first, then goes to the word at I * 256 + v. Rules R608. -/
def Obligations.MaskableInterruptModeTwo : Prop :=
  ∀ s : State, s.sampledPins.reset = false → s.nmiPending = false → s.sampledPins.nmiEdge = false →
    s.sampledPins.intLine = true → s.iff1 = true → s.eiDelay = false → s.im = .im2 →
    let entry : Word := BitVec.ofNat 16 (s.i.toNat * 256 + s.sampledPins.intBus.toNat)
    ∃ t, step s = .next t ∧ HoldsWord (s.accesses (pushWrites s.sp s.pc)) entry t.pc ∧
      t.halted = false ∧ t.iff1 = false ∧ t.iff2 = false ∧ Pushed s t s.pc ∧
      (s.rModel = .draw → t.r = s.r) ∧
      Frame { sp := true, r := true, iff := true, halted := true, pins := true, mem := stackCells s,
              bus := pushWrites s.sp s.pc ++ wordReads entry } s t

/-- In mode 0 a supplied restart pushes pc and goes to its target; any other supplied byte is refused. Rules R606. -/
def Obligations.MaskableInterruptModeZero : Prop :=
  ∀ s : State, s.sampledPins.reset = false → s.nmiPending = false → s.sampledPins.nmiEdge = false →
    s.sampledPins.intLine = true → s.iff1 = true → s.eiDelay = false → s.im = .im0 →
    let b := s.sampledPins.intBus
    (b &&& 0xC7 = 0xC7 → ∃ t, step s = .next t ∧ t.pc = BitVec.ofNat 16 (b &&& 0x38).toNat ∧
      t.halted = false ∧ t.iff1 = false ∧ t.iff2 = false ∧ Pushed s t s.pc ∧
      (s.rModel = .draw → t.r = s.r) ∧
      Frame { sp := true, r := true, iff := true, halted := true, pins := true, mem := stackCells s,
              bus := pushWrites s.sp s.pc } s t) ∧
    (b &&& 0xC7 ≠ 0xC7 → step s = .refused (.modeZeroSupplied b))

/-- A halted CPU with no reset and no accepted interrupt stays as it is. From spec/60_exceptions.md section 5,
spec/92_eei_decisions.md D16, D41. -/
def Obligations.HaltedStepChangesNothing : Prop :=
  ∀ s : State, s.sampledPins.reset = false → s.nmiPending = false → s.sampledPins.nmiEdge = false →
    (s.sampledPins.intLine = false ∨ s.iff1 = false) → s.halted = true →
    ∃ t, step s = .next t ∧ t.pc = s.pc ∧ t.main = s.main ∧ t.mem = s.mem ∧ t.draws = s.draws ∧
      (s.rModel = .draw → t.r = s.r) ∧ Frame { r := true, pins := true } s t

/-- After EI one more instruction runs before a maskable interrupt is accepted, and another EI delays again. From
spec/60_exceptions.md section 2, spec/44_general_cpu_control.md section 2. -/
def Obligations.EiDelaysTheMaskableInterrupt : Prop :=
  (∀ s : State, ∃ t, exec .ei s = .next t ∧ t.eiDelay = true ∧ t.iff1 = true ∧ t.iff2 = true) ∧
  ∀ (s t : State) (i : Instr), s.eiDelay = true → s.halted = false → s.sampledPins.reset = false →
    s.nmiPending = false → s.sampledPins.nmiEdge = false → s.sample.fetched = .ok i →
    step s = exec i (s.sample.beginInstr i) ∧ (step s = .next t → (t.eiDelay = true ↔ i = .ei))

/-- Of the instructions only DI, EI and RETN write IFF1 and IFF2, and only EX AF,AF' and EXX write an alternate
register. From spec/60_exceptions.md section 2, spec/92_eei_decisions.md D32, spec/10_state.md section 1. -/
def Obligations.FlipFlopAndAlternateSetWriters : Prop :=
  ∀ (i : Instr) (s t : State), exec i s = .next t →
    (i = .di → t.iff1 = false ∧ t.iff2 = false) ∧ (i = .ei → t.iff1 = true ∧ t.iff2 = true) ∧
    (i = .retn → t.iff1 = s.iff2 ∧ t.iff2 = s.iff2) ∧
    (i ≠ .di → i ≠ .ei → i ≠ .retn → t.iff1 = s.iff1 ∧ t.iff2 = s.iff2) ∧
    (i ≠ .exAf → i ≠ .exx → t.alt = s.alt)

/-- Model choices of log entries 3, 5 and 10: a step takes one record of inputs, keeps the parameters, never lowers the
counter of draws. From spec/00_scope.md section 3 (R8), spec/60_exceptions.md section 2 (R602), spec/92_eei_decisions.md section
2. -/
def Obligations.StepTakesOneRecordOfInputs : Prop :=
  (∀ s : State, Frame { nmiPending := true, pins := true } s s.sample ∧ s.sample.pins = s.pins.tail ∧
    s.sample.pc = s.pc ∧ s.sample.draws = s.draws ∧
    (s.sample.nmiPending = true ↔ s.nmiPending = true ∨ s.sampledPins.nmiEdge = true)) ∧
  ∀ s t : State, step s = .next t →
    t.pins = s.pins.tail ∧ t.memMap = s.memMap ∧ t.rModel = s.rModel ∧ t.blockIoFlags = s.blockIoFlags ∧
      s.draws ≤ t.draws

/-- Every step keeps the invariant of a run: canonical memory, IFF1 implies IFF2, no stale EI delay. From
spec/60_exceptions.md sections 2 and 5, spec/20_memory.md section 1. -/
def Obligations.InvariantKeptByEveryStep : Prop :=
  ∀ s t : State, s.Inv → step s = .next t → t.Inv

/-- The state after reset meets the invariant of a run. From spec/70_reset_and_hazards.md section 1,
spec/60_exceptions.md section 2. -/
def Obligations.ResetStateMeetsInvariant : Prop :=
  State.reset.Inv

/-- An instruction leaves F whole, loads it whole, or leaves its bits 5 and 3 as draws. From spec/10_state.md section
4, spec/92_eei_decisions.md D5. -/
def Obligations.FlagWritersLeaveUnnamedBitsDrawn : Prop :=
  ∀ (i : Instr) (s t : State), exec i s = .next t →
    t.main.f = s.main.f ∨ i = .popPair .af ∨ i = .exAf ∨
      ∃ k, s.draws ≤ k ∧ k + 1 < t.draws ∧ t.main.f.getLsbD 5 = Config.freeBit k ∧
        t.main.f.getLsbD 3 = Config.freeBit (k + 1)

/-- A byte stored to RAM is what later loads and fetches read, other addresses read as before, words are little-
endian. From spec/20_memory.md sections 1, 2 and 4. -/
def Obligations.StoreThenLoad : Prop :=
  ∀ (s : State) (a : Word) (v : Byte) (w : Word),
    Stored s (s.writeByte a v) a v ∧ Frame { mem := [a], bus := [.write a v] } s (s.writeByte a v) ∧
      (s.writeByte a v).pc = s.pc ∧
    StoredWord s (s.writeWord a w) a w ∧
    Frame { mem := [a, a + 1], bus := wordWrites a w } s (s.writeWord a w) ∧
    (s.isRam a = true → s.isRam (a + 1) = true → (s.writeWord a w).readWord a = w) ∧
    (s.isRam s.pc = true → (s.writeByte s.pc v).ReadsBytes s.pc [v])

/-- Push16 writes high then low below SP, Pop16 reads them back and restores SP. Rules R95. -/
def Obligations.PushThenPopGivesTheWordBack : Prop :=
  ∀ (s : State) (w : Word),
    Pushed s (s.push16 w) w ∧ Frame { sp := true, mem := stackCells s, bus := pushWrites s.sp w } s (s.push16 w) ∧
    (s.push16 w).pc = s.pc ∧
    HoldsWord s s.sp s.popped ∧ s.afterPop.sp = s.sp + 2 ∧
    Frame { sp := true, bus := wordReads s.sp } s s.afterPop ∧
    (s.isRam (s.sp - 1) = true → s.isRam (s.sp - 2) = true →
      (s.push16 w).popped = w ∧ (s.push16 w).afterPop.sp = s.sp)

/-- Model choices of log entries 9 and 10: ROM and absent addresses read as the map says, whatever instruction runs.
From spec/20_memory.md section 1 (R80), spec/92_eei_decisions.md D21 and section 2. -/
def Obligations.MemoryMapBehaviour : Prop :=
  (∀ (s : State) (a : Word) (v : Byte),
    (∀ contents, s.kindAt a = .rom contents → s.readByte a = Memory.read contents a.toNat) ∧
    (∀ b, s.kindAt a = .absent b → s.readByte a = b) ∧
    (s.kindAt a = .device → s.readByte a = Config.deviceByte a s.ioTrace) ∧
    (s.writeByte a v).cell a = (if (s.onWriteAt a).kept = true then v else s.cell a) ∧
    (s.writeByte a v).ioTrace = (if (s.onWriteAt a).handed = true then .memWrite a v :: s.ioTrace else s.ioTrace) ∧
    (s.afterRead a).ioTrace = (if s.isDevice a = true then .memRead a (s.readByte a) :: s.ioTrace else s.ioTrace)) ∧
  ∀ (i : Instr) (s t : State), exec i s = .next t →
    t.memMap = s.memMap ∧ ∀ x, s.isRam x = false → s.isDevice x = false →
      t.readByte x = s.readByte x

/-- LD r,r', LD r,n, LD r,(HL), LD r,(IX+d), LD r,(IY+d) load their register and nothing else. Rules R200, R201, R202,
R205, R206. -/
def Obligations.LoadRegister8 : Prop :=
  ∀ (s : State) (r r' : R8) (n d : Byte),
    Runs (.ldRR r r') [opByte 1 r.code r'.code] s (fun t =>
      t.pc = s.pc + 1 ∧ t.reg8 r = s.reg8 r' ∧ Frame { regs := [r] } s t) ∧
    Runs (.ldRN r n) [opByte 0 r.code 6, n] s (fun t =>
      t.pc = s.pc + 2 ∧ t.reg8 r = n ∧ Frame { regs := [r] } s t) ∧
    Runs (.ldRAtHl r) [opByte 1 r.code 6] s (fun t =>
      t.pc = s.pc + 1 ∧ t.reg8 r = s.readByte s.hl ∧
        Frame { regs := [r], bus := [.read s.hl] } s t) ∧
    Runs (.ldRAtIxd r d) [0xDD, opByte 1 r.code 6, d] s (fun t =>
      t.pc = s.pc + 3 ∧ t.reg8 r = s.readByte (s.atIxd d) ∧
        Frame { regs := [r], bus := [.read (s.atIxd d)] } s t) ∧
    Runs (.ldRAtIyd r d) [0xFD, opByte 1 r.code 6, d] s (fun t =>
      t.pc = s.pc + 3 ∧ t.reg8 r = s.readByte (s.atIyd d) ∧
        Frame { regs := [r], bus := [.read (s.atIyd d)] } s t)

/-- LD (HL),r, LD (HL),n, LD (IX+d),r, LD (IY+d),r, LD (IX+d),n, LD (IY+d),n store one byte and nothing else. Rules
R203, R204, R207, R208, R209, R210. -/
def Obligations.StoreByteThroughHlIxIy : Prop :=
  ∀ (s : State) (r : R8) (n d : Byte),
    Runs (.ldAtHlR r) [opByte 1 6 r.code] s (fun t =>
      t.pc = s.pc + 1 ∧ Stored s t s.hl (s.reg8 r) ∧
        Frame { mem := [s.hl], bus := [.write s.hl (s.reg8 r)] } s t) ∧
    Runs (.ldAtHlN n) [0x36, n] s (fun t =>
      t.pc = s.pc + 2 ∧ Stored s t s.hl n ∧
        Frame { mem := [s.hl], bus := [.write s.hl n] } s t) ∧
    Runs (.ldAtIxdR d r) [0xDD, opByte 1 6 r.code, d] s (fun t =>
      t.pc = s.pc + 3 ∧ Stored s t (s.atIxd d) (s.reg8 r) ∧
        Frame { mem := [s.atIxd d], bus := [.write (s.atIxd d) (s.reg8 r)] } s t) ∧
    Runs (.ldAtIydR d r) [0xFD, opByte 1 6 r.code, d] s (fun t =>
      t.pc = s.pc + 3 ∧ Stored s t (s.atIyd d) (s.reg8 r) ∧
        Frame { mem := [s.atIyd d], bus := [.write (s.atIyd d) (s.reg8 r)] } s t) ∧
    Runs (.ldAtIxdN d n) [0xDD, 0x36, d, n] s (fun t =>
      t.pc = s.pc + 4 ∧ Stored s t (s.atIxd d) n ∧
        Frame { mem := [s.atIxd d], bus := [.write (s.atIxd d) n] } s t) ∧
    Runs (.ldAtIydN d n) [0xFD, 0x36, d, n] s (fun t =>
      t.pc = s.pc + 4 ∧ Stored s t (s.atIyd d) n ∧
        Frame { mem := [s.atIyd d], bus := [.write (s.atIyd d) n] } s t)

/-- LD A,(BC), LD A,(DE), LD A,(nn), LD (BC),A, LD (DE),A, LD (nn),A move one byte between A and memory. Rules R211,
R212, R213, R214, R215, R216. -/
def Obligations.AccumulatorLoadsAndStores : Prop :=
  ∀ (s : State) (nn : Word),
    Runs .ldAAtBc [0x0A] s (fun t =>
      t.pc = s.pc + 1 ∧ t.main.a = s.readByte s.bc ∧
        Frame { regs := [.a], bus := [.read s.bc] } s t) ∧
    Runs .ldAAtDe [0x1A] s (fun t =>
      t.pc = s.pc + 1 ∧ t.main.a = s.readByte s.de ∧
        Frame { regs := [.a], bus := [.read s.de] } s t) ∧
    Runs (.ldAAtNn nn) [0x3A, loByte nn, hiByte nn] s (fun t =>
      t.pc = s.pc + 3 ∧ t.main.a = s.readByte nn ∧
        Frame { regs := [.a], bus := [.read nn] } s t) ∧
    Runs .ldAtBcA [0x02] s (fun t =>
      t.pc = s.pc + 1 ∧ Stored s t s.bc s.main.a ∧
        Frame { mem := [s.bc], bus := [.write s.bc s.main.a] } s t) ∧
    Runs .ldAtDeA [0x12] s (fun t =>
      t.pc = s.pc + 1 ∧ Stored s t s.de s.main.a ∧
        Frame { mem := [s.de], bus := [.write s.de s.main.a] } s t) ∧
    Runs (.ldAtNnA nn) [0x32, loByte nn, hiByte nn] s (fun t =>
      t.pc = s.pc + 3 ∧ Stored s t nn s.main.a ∧
        Frame { mem := [nn], bus := [.write nn s.main.a] } s t)

/-- LD A,I, LD A,R, LD I,A, LD R,A move I and R, the loads show IFF2; that LD A,R reads a count is log entry 6. From
R217, R218, R219, R220, spec/93_implementation_defined.md U5. -/
def Obligations.InterruptAndRefreshRegisterMoves : Prop :=
  ∀ s : State,
    Runs .ldAI [0xED, 0x57] s (fun t =>
      t.pc = s.pc + 2 ∧ t.main.a = s.i ∧ SignZero s.i t.flags ∧ t.flags.h = false ∧ t.flags.pv = s.iff2 ∧
        t.flags.n = false ∧ t.flags.c = s.flags.c ∧ OpenBits s t ∧ Frame { regs := [.a], flags := true } s t) ∧
    Runs .ldARefresh [0xED, 0x5F] s (fun t =>
      t.pc = s.pc + 2 ∧ (s.rModel = .m1Count → t.main.a = s.r) ∧
        (s.rModel = .draw → t.main.a = Config.freeByte s.draws ∧ s.draws < t.draws) ∧
        SignZero t.main.a t.flags ∧ t.flags.h = false ∧ t.flags.pv = s.iff2 ∧
        t.flags.n = false ∧ t.flags.c = s.flags.c ∧ OpenBits s t ∧ Frame { regs := [.a], flags := true } s t) ∧
    Runs .ldIA [0xED, 0x47] s (fun t => t.pc = s.pc + 2 ∧ t.i = s.main.a ∧ Frame { i := true } s t) ∧
    Runs .ldRefreshA [0xED, 0x4F] s (fun t => t.pc = s.pc + 2 ∧ t.r = s.main.a ∧ Frame { r := true } s t)

/-- LD rr,nn, LD IX,nn, LD IY,nn and the loads from (nn) load their pair, low byte from the lower address. Rules R240,
R241, R242, R243, R244, R245, R246. -/
def Obligations.LoadPair16 : Prop :=
  ∀ (s : State) (p : RR) (nn : Word),
    Runs (.ldPairNn p nn) [pairByte 0 p.code 1, loByte nn, hiByte nn] s (fun t =>
      t.pc = s.pc + 3 ∧ t.pair p = nn ∧ Frame { regs := p.halves, sp := p == .sp } s t) ∧
    Runs (.ldIxNn nn) [0xDD, 0x21, loByte nn, hiByte nn] s (fun t =>
      t.pc = s.pc + 4 ∧ t.ix = nn ∧ Frame { ix := true } s t) ∧
    Runs (.ldIyNn nn) [0xFD, 0x21, loByte nn, hiByte nn] s (fun t =>
      t.pc = s.pc + 4 ∧ t.iy = nn ∧ Frame { iy := true } s t) ∧
    Runs (.ldHlAtNn nn) [0x2A, loByte nn, hiByte nn] s (fun t =>
      t.pc = s.pc + 3 ∧ HoldsWord s nn t.hl ∧
        Frame { regs := [.h, .l], bus := wordReads nn } s t) ∧
    Runs (.ldPairAtNn p nn) [0xED, pairByte 1 p.code 0xB, loByte nn, hiByte nn] s (fun t =>
      t.pc = s.pc + 4 ∧ HoldsWord s nn (t.pair p) ∧
        Frame { regs := p.halves, sp := p == .sp, bus := wordReads nn } s t) ∧
    Runs (.ldIxAtNn nn) [0xDD, 0x2A, loByte nn, hiByte nn] s (fun t =>
      t.pc = s.pc + 4 ∧ HoldsWord s nn t.ix ∧
        Frame { ix := true, bus := wordReads nn } s t) ∧
    Runs (.ldIyAtNn nn) [0xFD, 0x2A, loByte nn, hiByte nn] s (fun t =>
      t.pc = s.pc + 4 ∧ HoldsWord s nn t.iy ∧
        Frame { iy := true, bus := wordReads nn } s t)

/-- LD (nn),HL, LD (nn),rr, LD (nn),IX, LD (nn),IY store a word, LD SP,HL, SP,IX, SP,IY set SP. Rules R247, R248,
R249, R250, R251, R252, R253. -/
def Obligations.StorePair16AndLoadSp : Prop :=
  ∀ (s : State) (p : RR) (nn : Word),
    Runs (.ldAtNnHl nn) [0x22, loByte nn, hiByte nn] s (fun t =>
      t.pc = s.pc + 3 ∧ StoredWord s t nn s.hl ∧
        Frame { mem := [nn, nn + 1], bus := wordWrites nn s.hl } s t) ∧
    Runs (.ldAtNnPair nn p) [0xED, pairByte 1 p.code 3, loByte nn, hiByte nn] s (fun t =>
      t.pc = s.pc + 4 ∧ StoredWord s t nn (s.pair p) ∧
        Frame { mem := [nn, nn + 1], bus := wordWrites nn (s.pair p) } s t) ∧
    Runs (.ldAtNnIx nn) [0xDD, 0x22, loByte nn, hiByte nn] s (fun t =>
      t.pc = s.pc + 4 ∧ StoredWord s t nn s.ix ∧
        Frame { mem := [nn, nn + 1], bus := wordWrites nn s.ix } s t) ∧
    Runs (.ldAtNnIy nn) [0xFD, 0x22, loByte nn, hiByte nn] s (fun t =>
      t.pc = s.pc + 4 ∧ StoredWord s t nn s.iy ∧
        Frame { mem := [nn, nn + 1], bus := wordWrites nn s.iy } s t) ∧
    Runs .ldSpHl [0xF9] s (fun t => t.pc = s.pc + 1 ∧ t.sp = s.hl ∧ Frame { sp := true } s t) ∧
    Runs .ldSpIx [0xDD, 0xF9] s (fun t => t.pc = s.pc + 2 ∧ t.sp = s.ix ∧ Frame { sp := true } s t) ∧
    Runs .ldSpIy [0xFD, 0xF9] s (fun t => t.pc = s.pc + 2 ∧ t.sp = s.iy ∧ Frame { sp := true } s t)

/-- PUSH and POP of a pair, IX and IY move a word between the register and the stack. Rules R254, R255, R256, R257,
R258, R259. -/
def Obligations.PushAndPop : Prop :=
  ∀ (s : State) (q : QQ),
    Runs (.pushPair q) [pairByte 3 q.code 5] s (fun t =>
      t.pc = s.pc + 1 ∧ Pushed s t (s.stackPair q) ∧
        Frame { sp := true, mem := stackCells s, bus := pushWrites s.sp (s.stackPair q) } s t) ∧
    Runs .pushIx [0xDD, 0xE5] s (fun t =>
      t.pc = s.pc + 2 ∧ Pushed s t s.ix ∧
        Frame { sp := true, mem := stackCells s, bus := pushWrites s.sp s.ix } s t) ∧
    Runs .pushIy [0xFD, 0xE5] s (fun t =>
      t.pc = s.pc + 2 ∧ Pushed s t s.iy ∧
        Frame { sp := true, mem := stackCells s, bus := pushWrites s.sp s.iy } s t) ∧
    Runs (.popPair q) [pairByte 3 q.code 1] s (fun t =>
      t.pc = s.pc + 1 ∧ HoldsWord s s.sp (t.stackPair q) ∧ t.sp = s.sp + 2 ∧
        Frame { regs := q.halves, flags := q == .af, sp := true, bus := wordReads s.sp } s t) ∧
    Runs .popIx [0xDD, 0xE1] s (fun t =>
      t.pc = s.pc + 2 ∧ HoldsWord s s.sp t.ix ∧ t.sp = s.sp + 2 ∧
        Frame { ix := true, sp := true, bus := wordReads s.sp } s t) ∧
    Runs .popIy [0xFD, 0xE1] s (fun t =>
      t.pc = s.pc + 2 ∧ HoldsWord s s.sp t.iy ∧ t.sp = s.sp + 2 ∧
        Frame { iy := true, sp := true, bus := wordReads s.sp } s t)

/-- EX DE,HL, EX AF,AF', EXX and EX (SP),HL/IX/IY exchange whole contents. From rules R280, R281, R282, R283,
R284, R285, spec/20_memory.md sections 2 and 3 (R83, R99). That the platform sees the write at SP before the write at
SP + 1 is the model's choice, which no rule makes: log entry 25. -/
def Obligations.Exchanges : Prop :=
  ∀ s : State,
    Runs .exDeHl [0xEB] s (fun t =>
      t.pc = s.pc + 1 ∧ t.de = s.hl ∧ t.hl = s.de ∧ Frame { regs := [.d, .e, .h, .l] } s t) ∧
    Runs .exAf [0x08] s (fun t =>
      t.pc = s.pc + 1 ∧ t.main.a = s.alt.a ∧ t.main.f = s.alt.f ∧
        t.alt = { s.alt with a := s.main.a, f := s.main.f } ∧
        Frame { regs := [.a], flags := true, alt := true } s t) ∧
    Runs .exx [0xD9] s (fun t =>
      t.pc = s.pc + 1 ∧ t.main = { s.alt with a := s.main.a, f := s.main.f } ∧
        t.alt = { s.main with a := s.alt.a, f := s.alt.f } ∧
        Frame { regs := [.b, .c, .d, .e, .h, .l], alt := true } s t) ∧
    Runs .exAtSpHl [0xE3] s (fun t =>
      t.pc = s.pc + 1 ∧ HoldsWord s s.sp t.hl ∧ StoredWord s t s.sp s.hl ∧
        Frame { regs := [.h, .l], mem := [s.sp, s.sp + 1], bus := wordReads s.sp ++ wordWrites s.sp s.hl } s t) ∧
    Runs .exAtSpIx [0xDD, 0xE3] s (fun t =>
      t.pc = s.pc + 2 ∧ HoldsWord s s.sp t.ix ∧ StoredWord s t s.sp s.ix ∧
        Frame { ix := true, mem := [s.sp, s.sp + 1], bus := wordReads s.sp ++ wordWrites s.sp s.ix } s t) ∧
    Runs .exAtSpIy [0xFD, 0xE3] s (fun t =>
      t.pc = s.pc + 2 ∧ HoldsWord s s.sp t.iy ∧ StoredWord s t s.sp s.iy ∧
        Frame { iy := true, mem := [s.sp, s.sp + 1], bus := wordReads s.sp ++ wordWrites s.sp s.iy } s t)

/-- LDI, LDD, LDIR, LDDR copy one byte, step DE and HL, count BC down; the last two stay while BC is not 0. Rules
R286, R287, R288, R289. -/
def Obligations.BlockLoads : Prop :=
  ∀ s : State,
    Runs .ldi [0xED, 0xA0] s (fun t =>
      t.pc = s.pc + 2 ∧ Stored s t s.de (s.readByte s.hl) ∧ t.hl = s.hl + 1 ∧ t.de = s.de + 1 ∧ t.bc = s.bc - 1 ∧
        t.flags.h = false ∧ (t.flags.pv = true ↔ t.bc ≠ 0) ∧ t.flags.n = false ∧ t.flags.s = s.flags.s ∧
        t.flags.z = s.flags.z ∧ t.flags.c = s.flags.c ∧
        OpenBits s t ∧
        Frame { regs := [.b, .c, .d, .e, .h, .l], flags := true, mem := [s.de],
                bus := [.read s.hl, .write s.de (s.readByte s.hl)] } s t) ∧
    Runs .ldir [0xED, 0xB0] s (fun t =>
      t.pc = (if t.bc = 0 then s.pc + 2 else s.pc) ∧ Stored s t s.de (s.readByte s.hl) ∧ t.hl = s.hl + 1 ∧
        t.de = s.de + 1 ∧ t.bc = s.bc - 1 ∧
        t.flags.h = false ∧ (t.flags.pv = true ↔ t.bc ≠ 0) ∧ t.flags.n = false ∧ t.flags.s = s.flags.s ∧
        t.flags.z = s.flags.z ∧ t.flags.c = s.flags.c ∧
        OpenBits s t ∧
        Frame { regs := [.b, .c, .d, .e, .h, .l], flags := true, mem := [s.de],
                bus := [.read s.hl, .write s.de (s.readByte s.hl)] } s t) ∧
    Runs .ldd [0xED, 0xA8] s (fun t =>
      t.pc = s.pc + 2 ∧ Stored s t s.de (s.readByte s.hl) ∧ t.hl = s.hl - 1 ∧ t.de = s.de - 1 ∧ t.bc = s.bc - 1 ∧
        t.flags.h = false ∧ (t.flags.pv = true ↔ t.bc ≠ 0) ∧ t.flags.n = false ∧ t.flags.s = s.flags.s ∧
        t.flags.z = s.flags.z ∧ t.flags.c = s.flags.c ∧
        OpenBits s t ∧
        Frame { regs := [.b, .c, .d, .e, .h, .l], flags := true, mem := [s.de],
                bus := [.read s.hl, .write s.de (s.readByte s.hl)] } s t) ∧
    Runs .lddr [0xED, 0xB8] s (fun t =>
      t.pc = (if t.bc = 0 then s.pc + 2 else s.pc) ∧ Stored s t s.de (s.readByte s.hl) ∧ t.hl = s.hl - 1 ∧
        t.de = s.de - 1 ∧ t.bc = s.bc - 1 ∧
        t.flags.h = false ∧ (t.flags.pv = true ↔ t.bc ≠ 0) ∧ t.flags.n = false ∧ t.flags.s = s.flags.s ∧
        t.flags.z = s.flags.z ∧ t.flags.c = s.flags.c ∧
        OpenBits s t ∧
        Frame { regs := [.b, .c, .d, .e, .h, .l], flags := true, mem := [s.de],
                bus := [.read s.hl, .write s.de (s.readByte s.hl)] } s t)

/-- CPI, CPD, CPIR, CPDR compare A with (HL), step HL, count BC down; the last two stay until found or BC = 0. Rules
R290, R291, R292, R293. -/
def Obligations.BlockCompares : Prop :=
  ∀ s : State,
    Runs .cpi [0xED, 0xA1] s (fun t =>
      t.pc = s.pc + 2 ∧ t.hl = s.hl + 1 ∧ t.bc = s.bc - 1 ∧
        (t.flags.s = true ↔ 128 ≤ (s.main.a - s.readByte s.hl).toNat) ∧
        (t.flags.z = true ↔ s.main.a = s.readByte s.hl) ∧
        (t.flags.h = true ↔ s.main.a.toNat % 16 < (s.readByte s.hl).toNat % 16) ∧
        (t.flags.pv = true ↔ t.bc ≠ 0) ∧ t.flags.n = true ∧ t.flags.c = s.flags.c ∧
        OpenBits s t ∧ Frame { regs := [.b, .c, .h, .l], flags := true, bus := [.read s.hl] } s t) ∧
    Runs .cpir [0xED, 0xB1] s (fun t =>
      t.pc = (if t.bc = 0 ∨ s.main.a = s.readByte s.hl then s.pc + 2 else s.pc) ∧ t.hl = s.hl + 1 ∧ t.bc = s.bc - 1 ∧
        (t.flags.s = true ↔ 128 ≤ (s.main.a - s.readByte s.hl).toNat) ∧
        (t.flags.z = true ↔ s.main.a = s.readByte s.hl) ∧
        (t.flags.h = true ↔ s.main.a.toNat % 16 < (s.readByte s.hl).toNat % 16) ∧
        (t.flags.pv = true ↔ t.bc ≠ 0) ∧ t.flags.n = true ∧ t.flags.c = s.flags.c ∧
        OpenBits s t ∧ Frame { regs := [.b, .c, .h, .l], flags := true, bus := [.read s.hl] } s t) ∧
    Runs .cpd [0xED, 0xA9] s (fun t =>
      t.pc = s.pc + 2 ∧ t.hl = s.hl - 1 ∧ t.bc = s.bc - 1 ∧
        (t.flags.s = true ↔ 128 ≤ (s.main.a - s.readByte s.hl).toNat) ∧
        (t.flags.z = true ↔ s.main.a = s.readByte s.hl) ∧
        (t.flags.h = true ↔ s.main.a.toNat % 16 < (s.readByte s.hl).toNat % 16) ∧
        (t.flags.pv = true ↔ t.bc ≠ 0) ∧ t.flags.n = true ∧ t.flags.c = s.flags.c ∧
        OpenBits s t ∧ Frame { regs := [.b, .c, .h, .l], flags := true, bus := [.read s.hl] } s t) ∧
    Runs .cpdr [0xED, 0xB9] s (fun t =>
      t.pc = (if t.bc = 0 ∨ s.main.a = s.readByte s.hl then s.pc + 2 else s.pc) ∧ t.hl = s.hl - 1 ∧ t.bc = s.bc - 1 ∧
        (t.flags.s = true ↔ 128 ≤ (s.main.a - s.readByte s.hl).toNat) ∧
        (t.flags.z = true ↔ s.main.a = s.readByte s.hl) ∧
        (t.flags.h = true ↔ s.main.a.toNat % 16 < (s.readByte s.hl).toNat % 16) ∧
        (t.flags.pv = true ↔ t.bc ≠ 0) ∧ t.flags.n = true ∧ t.flags.c = s.flags.c ∧
        OpenBits s t ∧ Frame { regs := [.b, .c, .h, .l], flags := true, bus := [.read s.hl] } s t)

/-- ADD A and ADC A in all five operand forms: sum, six flags with P/V as signed overflow, frame. Rules R324, R325,
R326, R327, R328, R329, R330, R331, R332, R333, R320. -/
def Obligations.AddAndAdcToA : Prop :=
  ∀ s : State,
    ForFiveForms 0 .addR .addN .addAtHl .addAtIxd .addAtIyd s (fun v len bus t =>
      t.pc = s.pc + len ∧ Sum8 s.main.a v false t.main.a t.flags ∧ OpenBits s t ∧
        Frame { regs := [.a], flags := true, bus := bus } s t) ∧
    ForFiveForms 1 .adcR .adcN .adcAtHl .adcAtIxd .adcAtIyd s (fun v len bus t =>
      t.pc = s.pc + len ∧ Sum8 s.main.a v s.flags.c t.main.a t.flags ∧ OpenBits s t ∧
        Frame { regs := [.a], flags := true, bus := bus } s t)

/-- SUB and SBC A in all five operand forms: difference, six flags with P/V as signed overflow, frame. Rules R349,
R350, R351, R352, R353, R354, R355, R356, R357, R358. -/
def Obligations.SubAndSbcFromA : Prop :=
  ∀ s : State,
    ForFiveForms 2 .subR .subN .subAtHl .subAtIxd .subAtIyd s (fun v len bus t =>
      t.pc = s.pc + len ∧ Diff8 s.main.a v false t.main.a t.flags ∧ OpenBits s t ∧
        Frame { regs := [.a], flags := true, bus := bus } s t) ∧
    ForFiveForms 3 .sbcR .sbcN .sbcAtHl .sbcAtIxd .sbcAtIyd s (fun v len bus t =>
      t.pc = s.pc + len ∧ Diff8 s.main.a v s.flags.c t.main.a t.flags ∧ OpenBits s t ∧
        Frame { regs := [.a], flags := true, bus := bus } s t)

/-- CP in all five operand forms sets the flags of a subtraction and changes no register. Rules R339, R340, R341,
R342, R343. -/
def Obligations.CompareWithA : Prop :=
  ∀ s : State,
    ForFiveForms 7 .cpR .cpN .cpAtHl .cpAtIxd .cpAtIyd s (fun v len bus t =>
      t.pc = s.pc + len ∧ Diff8 s.main.a v false (s.main.a - v) t.flags ∧ OpenBits s t ∧
        Frame { flags := true, bus := bus } s t)

/-- AND in all five operand forms: the bitwise and, H = 1, N = C = 0, parity in P/V. Rules R334, R335, R336, R337,
R338. -/
def Obligations.AndWithA : Prop :=
  ∀ s : State,
    ForFiveForms 4 .andR .andN .andAtHl .andAtIxd .andAtIyd s (fun v len bus t =>
      t.pc = s.pc + len ∧ (∀ k, t.main.a.getLsbD k = (s.main.a.getLsbD k && v.getLsbD k)) ∧
        Logic8 t.main.a true t.flags ∧ OpenBits s t ∧ Frame { regs := [.a], flags := true, bus := bus } s t)

/-- OR and XOR in all five operand forms: bitwise result, H = N = C = 0, parity in P/V. Rules R344, R345, R346, R347,
R348, R359, R360, R361, R362, R363. -/
def Obligations.OrAndXorWithA : Prop :=
  ∀ s : State,
    ForFiveForms 6 .orR .orN .orAtHl .orAtIxd .orAtIyd s (fun v len bus t =>
      t.pc = s.pc + len ∧ (∀ k, t.main.a.getLsbD k = (s.main.a.getLsbD k || v.getLsbD k)) ∧
        Logic8 t.main.a false t.flags ∧ OpenBits s t ∧ Frame { regs := [.a], flags := true, bus := bus } s t) ∧
    ForFiveForms 5 .xorR .xorN .xorAtHl .xorAtIxd .xorAtIyd s (fun v len bus t =>
      t.pc = s.pc + len ∧ (∀ k, t.main.a.getLsbD k = (s.main.a.getLsbD k ^^ v.getLsbD k)) ∧
        Logic8 t.main.a false t.flags ∧ OpenBits s t ∧ Frame { regs := [.a], flags := true, bus := bus } s t)

/-- INC and DEC of a register and of (HL), (IX+d), (IY+d): result, five flags, C kept. Rules R323, R364, R365, R366,
R367, R368, R369, R370, R371. -/
def Obligations.IncAndDec8 : Prop :=
  ∀ s : State,
    (∀ r, Runs (.incR r) [opByte 0 r.code 4] s (fun t =>
      t.pc = s.pc + 1 ∧ Inc8 (s.reg8 r) s.flags (t.reg8 r) t.flags ∧ OpenBits s t ∧
        Frame { regs := [r], flags := true } s t)) ∧
    Runs .incAtHl [0x34] s (fun t =>
      t.pc = s.pc + 1 ∧ (∃ res, Inc8 (s.readByte s.hl) s.flags res t.flags ∧ Stored s t s.hl res ∧
        Frame { flags := true, mem := [s.hl], bus := [.read s.hl, .write s.hl res] } s t) ∧ OpenBits s t) ∧
    (∀ d, Runs (.incAtIxd d) [0xDD, 0x34, d] s (fun t =>
      t.pc = s.pc + 3 ∧ (∃ res, Inc8 (s.readByte (s.atIxd d)) s.flags res t.flags ∧ Stored s t (s.atIxd d) res ∧
        Frame { flags := true, mem := [s.atIxd d], bus := [.read (s.atIxd d), .write (s.atIxd d) res] } s t) ∧
        OpenBits s t)) ∧
    (∀ d, Runs (.incAtIyd d) [0xFD, 0x34, d] s (fun t =>
      t.pc = s.pc + 3 ∧ (∃ res, Inc8 (s.readByte (s.atIyd d)) s.flags res t.flags ∧ Stored s t (s.atIyd d) res ∧
        Frame { flags := true, mem := [s.atIyd d], bus := [.read (s.atIyd d), .write (s.atIyd d) res] } s t) ∧
        OpenBits s t)) ∧
    (∀ r, Runs (.decR r) [opByte 0 r.code 5] s (fun t =>
      t.pc = s.pc + 1 ∧ Dec8 (s.reg8 r) s.flags (t.reg8 r) t.flags ∧ OpenBits s t ∧
        Frame { regs := [r], flags := true } s t)) ∧
    Runs .decAtHl [0x35] s (fun t =>
      t.pc = s.pc + 1 ∧ (∃ res, Dec8 (s.readByte s.hl) s.flags res t.flags ∧ Stored s t s.hl res ∧
        Frame { flags := true, mem := [s.hl], bus := [.read s.hl, .write s.hl res] } s t) ∧ OpenBits s t) ∧
    (∀ d, Runs (.decAtIxd d) [0xDD, 0x35, d] s (fun t =>
      t.pc = s.pc + 3 ∧ (∃ res, Dec8 (s.readByte (s.atIxd d)) s.flags res t.flags ∧ Stored s t (s.atIxd d) res ∧
        Frame { flags := true, mem := [s.atIxd d], bus := [.read (s.atIxd d), .write (s.atIxd d) res] } s t) ∧
        OpenBits s t)) ∧
    (∀ d, Runs (.decAtIyd d) [0xFD, 0x35, d] s (fun t =>
      t.pc = s.pc + 3 ∧ (∃ res, Dec8 (s.readByte (s.atIyd d)) s.flags res t.flags ∧ Stored s t (s.atIyd d) res ∧
        Frame { flags := true, mem := [s.atIyd d], bus := [.read (s.atIyd d), .write (s.atIyd d) res] } s t) ∧
        OpenBits s t))

/-- DAA corrects A by 06H, 60H or 66H on every A and F, and does what each row of the source table says. From
spec/44_general_cpu_control.md section 1, spec/92_eei_decisions.md D22. -/
def Obligations.DecimalAdjust : Prop :=
  ∀ s : State, Runs .daa [0x27] s (fun t =>
    let a := s.main.a.toNat
    let low := if s.flags.h = true ∨ 9 < a % 16 then 6 else 0
    let high := if s.flags.c = true ∨ 0x99 < a then 0x60 else 0
    t.pc = s.pc + 1 ∧
    (s.flags.n = false → t.main.a.toNat = (a + low + high) % 256) ∧
    (s.flags.n = true → t.main.a.toNat = (a + 256 - low - high) % 256) ∧
    SignZero t.main.a t.flags ∧ ParityOf t.main.a t.flags ∧ t.flags.n = s.flags.n ∧
    (t.flags.c = true ↔ s.flags.c = true ∨ 0x99 < a) ∧
    (t.flags.h = true ↔ (s.flags.n = false ∧ 9 < a % 16) ∨ (s.flags.n = true ∧ s.flags.h = true ∧ a % 16 < 6)) ∧
    (∀ row ∈ daaTable, row.fits s.main.a s.flags →
      t.main.a.toNat = (a + row.added) % 256 ∧ t.flags.c = row.cout) ∧
    OpenBits s t ∧ Frame { regs := [.a], flags := true } s t)

/-- CPL, NEG, CCF and SCF: A, the flags they name, and nothing else. Rules R381, R382, R383, R384. -/
def Obligations.AccumulatorAndCarryOperations : Prop :=
  ∀ s : State,
    Runs .cpl [0x2F] s (fun t =>
      t.pc = s.pc + 1 ∧ (∀ k, k < 8 → t.main.a.getLsbD k = !s.main.a.getLsbD k) ∧
        t.flags = { s.flags with h := true, n := true } ∧ OpenBits s t ∧ Frame { regs := [.a], flags := true } s t) ∧
    Runs .neg [0xED, 0x44] s (fun t =>
      t.pc = s.pc + 2 ∧ Diff8 0 s.main.a false t.main.a t.flags ∧ (t.flags.pv = true ↔ s.main.a = 0x80) ∧
        (t.flags.c = true ↔ s.main.a ≠ 0) ∧ OpenBits s t ∧ Frame { regs := [.a], flags := true } s t) ∧
    Runs .ccf [0x3F] s (fun t =>
      t.pc = s.pc + 1 ∧ t.flags.c = (!s.flags.c) ∧ Drawn s t t.flags.h ∧ t.flags.n = false ∧ t.flags.s = s.flags.s ∧
        t.flags.z = s.flags.z ∧ t.flags.pv = s.flags.pv ∧ OpenBits s t ∧ Frame { flags := true } s t) ∧
    Runs .scf [0x37] s (fun t =>
      t.pc = s.pc + 1 ∧ t.flags = { s.flags with h := false, n := false, c := true } ∧ OpenBits s t ∧
        Frame { flags := true } s t)

/-- NOP, HALT, DI, EI, IM 0, IM 1, IM 2 write only the control state they name. From R385, R386, R387, R388, R389,
R390, R391, spec/60_exceptions.md section 5. -/
def Obligations.CpuControl : Prop :=
  ∀ s : State,
    Runs .nop [0x00] s (fun t => t.pc = s.pc + 1 ∧ Frame {} s t) ∧
    Runs .halt [0x76] s (fun t => t.pc = s.pc + 1 ∧ t.halted = true ∧ Frame { halted := true } s t) ∧
    Runs .di [0xF3] s (fun t =>
      t.pc = s.pc + 1 ∧ t.iff1 = false ∧ t.iff2 = false ∧ Frame { iff := true } s t) ∧
    Runs .ei [0xFB] s (fun t =>
      t.pc = s.pc + 1 ∧ t.iff1 = true ∧ t.iff2 = true ∧ t.eiDelay = true ∧
        Frame { iff := true, eiDelay := true } s t) ∧
    Runs .im0 [0xED, 0x46] s (fun t => t.pc = s.pc + 2 ∧ t.im = .im0 ∧ Frame { im := true } s t) ∧
    Runs .im1 [0xED, 0x56] s (fun t => t.pc = s.pc + 2 ∧ t.im = .im1 ∧ Frame { im := true } s t) ∧
    Runs .im2 [0xED, 0x5E] s (fun t => t.pc = s.pc + 2 ∧ t.im = .im2 ∧ Frame { im := true } s t)

/-- ADD HL,rr, ADD IX,pp, ADD IY,pp: sum, H and C, N = 0, S, Z and P/V kept. Rules R400, R403, R404, R405. -/
def Obligations.Add16 : Prop :=
  ∀ s : State,
    (∀ p, Runs (.addHlPair p) [pairByte 0 p.code 9] s (fun t =>
      t.pc = s.pc + 1 ∧ Sum16 s.hl (s.pair p) s.flags t.hl t.flags ∧ OpenBits s t ∧
        Frame { regs := [.h, .l], flags := true } s t)) ∧
    (∀ p, Runs (.addIxPair p) [0xDD, pairByte 0 p.code 9] s (fun t =>
      t.pc = s.pc + 2 ∧ Sum16 s.ix (s.pairX p) s.flags t.ix t.flags ∧ OpenBits s t ∧
        Frame { flags := true, ix := true } s t)) ∧
    (∀ p, Runs (.addIyPair p) [0xFD, pairByte 0 p.code 9] s (fun t =>
      t.pc = s.pc + 2 ∧ Sum16 s.iy (s.pairY p) s.flags t.iy t.flags ∧ OpenBits s t ∧
        Frame { flags := true, iy := true } s t))

/-- ADC HL,rr and SBC HL,rr: result and all six flags over 16 bits. Rules R401, R402, R406. -/
def Obligations.AddAndSubtractWithCarry16 : Prop :=
  ∀ (s : State) (p : RR),
    Runs (.adcHlPair p) [0xED, pairByte 1 p.code 0xA] s (fun t =>
      t.pc = s.pc + 2 ∧ SumCarry16 s.hl (s.pair p) s.flags.c t.hl t.flags ∧
        OpenBits s t ∧ Frame { regs := [.h, .l], flags := true } s t) ∧
    Runs (.sbcHlPair p) [0xED, pairByte 1 p.code 2] s (fun t =>
      t.pc = s.pc + 2 ∧ DiffCarry16 s.hl (s.pair p) s.flags.c t.hl t.flags ∧
        OpenBits s t ∧ Frame { regs := [.h, .l], flags := true } s t)

/-- INC and DEC of a pair, IX and IY wrap modulo 65536 and change no flag. Rules R407, R408, R409, R410, R411, R412.
-/
def Obligations.IncAndDec16 : Prop :=
  ∀ (s : State) (p : RR),
    Runs (.incPair p) [pairByte 0 p.code 3] s (fun t =>
      t.pc = s.pc + 1 ∧ t.pair p = s.pair p + 1 ∧ Frame { regs := p.halves, sp := p == .sp } s t) ∧
    Runs .incIx [0xDD, 0x23] s (fun t => t.pc = s.pc + 2 ∧ t.ix = s.ix + 1 ∧ Frame { ix := true } s t) ∧
    Runs .incIy [0xFD, 0x23] s (fun t => t.pc = s.pc + 2 ∧ t.iy = s.iy + 1 ∧ Frame { iy := true } s t) ∧
    Runs (.decPair p) [pairByte 0 p.code 0xB] s (fun t =>
      t.pc = s.pc + 1 ∧ t.pair p = s.pair p - 1 ∧ Frame { regs := p.halves, sp := p == .sp } s t) ∧
    Runs .decIx [0xDD, 0x2B] s (fun t => t.pc = s.pc + 2 ∧ t.ix = s.ix - 1 ∧ Frame { ix := true } s t) ∧
    Runs .decIy [0xFD, 0x2B] s (fun t => t.pc = s.pc + 2 ∧ t.iy = s.iy - 1 ∧ Frame { iy := true } s t)

/-- The seven data movements, bit by bit. Rules R420. -/
def Obligations.RotateMovesEveryBit : Prop :=
  ∀ (kind : RotKind) (v : Byte) (cin : Bool), Moved kind v cin (rot kind v cin).1 (rot kind v cin).2

/-- RL and RLC in all operand forms: bits moved, flags, one byte written. Rules R428, R429, R430, R431, R432, R433,
R434, R435. -/
def Obligations.RotateLeft : Prop :=
  ∀ s : State,
    ForCbForms 0 2 .rlR .rlAtHl .rlAtIxd .rlAtIyd s
      (fun r t => t.pc = s.pc + 2 ∧ RotatedTo .rl (s.reg8 r) s.flags (t.reg8 r) t.flags ∧
        OpenBits s t ∧ Frame { regs := [r], flags := true } s t)
      (fun a len t => t.pc = s.pc + len ∧
        (∃ res, RotatedTo .rl (s.readByte a) s.flags res t.flags ∧ Stored s t a res ∧
          Frame { flags := true, mem := [a], bus := [.read a, .write a res] } s t) ∧ OpenBits s t) ∧
    ForCbForms 0 0 .rlcR .rlcAtHl .rlcAtIxd .rlcAtIyd s
      (fun r t => t.pc = s.pc + 2 ∧ RotatedTo .rlc (s.reg8 r) s.flags (t.reg8 r) t.flags ∧
        OpenBits s t ∧ Frame { regs := [r], flags := true } s t)
      (fun a len t => t.pc = s.pc + len ∧
        (∃ res, RotatedTo .rlc (s.readByte a) s.flags res t.flags ∧ Stored s t a res ∧
          Frame { flags := true, mem := [a], bus := [.read a, .write a res] } s t) ∧ OpenBits s t)

/-- RR and RRC in all operand forms: bits moved, flags, one byte written. Rules R436, R437, R438, R439, R440, R441,
R442, R443. -/
def Obligations.RotateRight : Prop :=
  ∀ s : State,
    ForCbForms 0 3 .rrR .rrAtHl .rrAtIxd .rrAtIyd s
      (fun r t => t.pc = s.pc + 2 ∧ RotatedTo .rr (s.reg8 r) s.flags (t.reg8 r) t.flags ∧
        OpenBits s t ∧ Frame { regs := [r], flags := true } s t)
      (fun a len t => t.pc = s.pc + len ∧
        (∃ res, RotatedTo .rr (s.readByte a) s.flags res t.flags ∧ Stored s t a res ∧
          Frame { flags := true, mem := [a], bus := [.read a, .write a res] } s t) ∧ OpenBits s t) ∧
    ForCbForms 0 1 .rrcR .rrcAtHl .rrcAtIxd .rrcAtIyd s
      (fun r t => t.pc = s.pc + 2 ∧ RotatedTo .rrc (s.reg8 r) s.flags (t.reg8 r) t.flags ∧
        OpenBits s t ∧ Frame { regs := [r], flags := true } s t)
      (fun a len t => t.pc = s.pc + len ∧
        (∃ res, RotatedTo .rrc (s.readByte a) s.flags res t.flags ∧ Stored s t a res ∧
          Frame { flags := true, mem := [a], bus := [.read a, .write a res] } s t) ∧ OpenBits s t)

/-- SLA, SRA and SRL in all operand forms: bits moved, flags, one byte written. Rules R444, R445, R446, R447, R448,
R449, R450, R451, R452, R453, R454, R455. -/
def Obligations.Shifts : Prop :=
  ∀ s : State,
    ForCbForms 0 4 .slaR .slaAtHl .slaAtIxd .slaAtIyd s
      (fun r t => t.pc = s.pc + 2 ∧ RotatedTo .sla (s.reg8 r) s.flags (t.reg8 r) t.flags ∧
        OpenBits s t ∧ Frame { regs := [r], flags := true } s t)
      (fun a len t => t.pc = s.pc + len ∧
        (∃ res, RotatedTo .sla (s.readByte a) s.flags res t.flags ∧ Stored s t a res ∧
          Frame { flags := true, mem := [a], bus := [.read a, .write a res] } s t) ∧ OpenBits s t) ∧
    ForCbForms 0 5 .sraR .sraAtHl .sraAtIxd .sraAtIyd s
      (fun r t => t.pc = s.pc + 2 ∧ RotatedTo .sra (s.reg8 r) s.flags (t.reg8 r) t.flags ∧
        OpenBits s t ∧ Frame { regs := [r], flags := true } s t)
      (fun a len t => t.pc = s.pc + len ∧
        (∃ res, RotatedTo .sra (s.readByte a) s.flags res t.flags ∧ Stored s t a res ∧
          Frame { flags := true, mem := [a], bus := [.read a, .write a res] } s t) ∧ OpenBits s t) ∧
    ForCbForms 0 7 .srlR .srlAtHl .srlAtIxd .srlAtIyd s
      (fun r t => t.pc = s.pc + 2 ∧ RotatedTo .srl (s.reg8 r) s.flags (t.reg8 r) t.flags ∧
        OpenBits s t ∧ Frame { regs := [r], flags := true } s t)
      (fun a len t => t.pc = s.pc + len ∧
        (∃ res, RotatedTo .srl (s.readByte a) s.flags res t.flags ∧ Stored s t a res ∧
          Frame { flags := true, mem := [a], bus := [.read a, .write a res] } s t) ∧ OpenBits s t)

/-- RLCA, RLA, RRCA, RRA rotate A; RLD and RRD move the digits of A and (HL) at once; flags and frame. Rules R422,
R424, R425, R426, R427, R456, R457. -/
def Obligations.AccumulatorAndDigitRotates : Prop :=
  ∀ s : State,
    Runs .rlca [0x07] s (fun t =>
      t.pc = s.pc + 1 ∧ Moved .rlc s.main.a s.flags.c t.main.a t.flags.c ∧
        t.flags = { s.flags with h := false, n := false, c := t.flags.c } ∧ OpenBits s t ∧
          Frame { regs := [.a], flags := true } s t) ∧
    Runs .rla [0x17] s (fun t =>
      t.pc = s.pc + 1 ∧ Moved .rl s.main.a s.flags.c t.main.a t.flags.c ∧
        t.flags = { s.flags with h := false, n := false, c := t.flags.c } ∧ OpenBits s t ∧
          Frame { regs := [.a], flags := true } s t) ∧
    Runs .rrca [0x0F] s (fun t =>
      t.pc = s.pc + 1 ∧ Moved .rrc s.main.a s.flags.c t.main.a t.flags.c ∧
        t.flags = { s.flags with h := false, n := false, c := t.flags.c } ∧ OpenBits s t ∧
          Frame { regs := [.a], flags := true } s t) ∧
    Runs .rra [0x1F] s (fun t =>
      t.pc = s.pc + 1 ∧ Moved .rr s.main.a s.flags.c t.main.a t.flags.c ∧
        t.flags = { s.flags with h := false, n := false, c := t.flags.c } ∧ OpenBits s t ∧
          Frame { regs := [.a], flags := true } s t) ∧
    Runs .rld [0xED, 0x6F] s (fun t =>
      t.pc = s.pc + 2 ∧ t.main.a.toNat = s.main.a.toNat / 16 * 16 + (s.readByte s.hl).toNat / 16 ∧
        Stored s t s.hl (BitVec.ofNat 8 ((s.readByte s.hl).toNat % 16 * 16 + s.main.a.toNat % 16)) ∧
        SignZero t.main.a t.flags ∧ ParityOf t.main.a t.flags ∧
        t.flags.h = false ∧ t.flags.n = false ∧ t.flags.c = s.flags.c ∧
        OpenBits s t ∧
        Frame { regs := [.a], flags := true, mem := [s.hl],
                bus := [.read s.hl,
                        .write s.hl (BitVec.ofNat 8 ((s.readByte s.hl).toNat % 16 * 16 + s.main.a.toNat % 16))] } s t) ∧
    Runs .rrd [0xED, 0x67] s (fun t =>
      t.pc = s.pc + 2 ∧ t.main.a.toNat = s.main.a.toNat / 16 * 16 + (s.readByte s.hl).toNat % 16 ∧
        Stored s t s.hl (BitVec.ofNat 8 (s.main.a.toNat % 16 * 16 + (s.readByte s.hl).toNat / 16)) ∧
        SignZero t.main.a t.flags ∧ ParityOf t.main.a t.flags ∧
        t.flags.h = false ∧ t.flags.n = false ∧ t.flags.c = s.flags.c ∧
        OpenBits s t ∧
        Frame { regs := [.a], flags := true, mem := [s.hl],
                bus := [.read s.hl,
                        .write s.hl (BitVec.ofNat 8 (s.main.a.toNat % 16 * 16 + (s.readByte s.hl).toNat / 16))] } s t)

/-- BIT b in all operand forms: Z the complement of the bit, H = 1, N = 0, C kept, S and P/V draws. Rules R480, R481,
R482, R483. -/
def Obligations.BitTest : Prop :=
  ∀ (s : State) (b : BitVec 3),
    let tested : Byte → List Access → State → Prop := fun v bus t =>
      (t.flags.z = true ↔ v.getLsbD b.toNat = false) ∧ t.flags.h = true ∧ t.flags.n = false ∧
        t.flags.c = s.flags.c ∧ Drawn s t t.flags.s ∧ Drawn s t t.flags.pv ∧ OpenBits s t ∧
          Frame { flags := true, bus := bus } s t
    ForCbForms 1 b (.bitR b) (.bitAtHl b) (.bitAtIxd b) (.bitAtIyd b) s
      (fun r t => t.pc = s.pc + 2 ∧ tested (s.reg8 r) [] t)
      (fun a len t => t.pc = s.pc + len ∧ tested (s.readByte a) [.read a] t)

/-- RES b and SET b in all operand forms clear or set one bit and change no flag. Rules R484, R485, R486, R487, R488,
R489, R490, R491. -/
def Obligations.BitResetAndSet : Prop :=
  ∀ (s : State) (b : BitVec 3),
    let written : Bool → Byte → Byte → Prop := fun bit v res =>
      ∀ k, k < 8 → res.getLsbD k = if k = b.toNat then bit else v.getLsbD k
    ForCbForms 2 b (.resR b) (.resAtHl b) (.resAtIxd b) (.resAtIyd b) s
      (fun r t => t.pc = s.pc + 2 ∧ written false (s.reg8 r) (t.reg8 r) ∧ Frame { regs := [r] } s t)
      (fun a len t => t.pc = s.pc + len ∧ ∃ res, written false (s.readByte a) res ∧ Stored s t a res ∧
        Frame { mem := [a], bus := [.read a, .write a res] } s t) ∧
    ForCbForms 3 b (.setR b) (.setAtHl b) (.setAtIxd b) (.setAtIyd b) s
      (fun r t => t.pc = s.pc + 2 ∧ written true (s.reg8 r) (t.reg8 r) ∧ Frame { regs := [r] } s t)
      (fun a len t => t.pc = s.pc + len ∧ ∃ res, written true (s.readByte a) res ∧ Stored s t a res ∧
        Frame { mem := [a], bus := [.read a, .write a res] } s t)

/-- The eight conditions test Z, C, P/V and S of F, numbered as the table says. Rules R40. -/
def Obligations.ConditionCodes : Prop :=
  ∀ s : State,
    (s.cond .nz = true ↔ s.main.f.getLsbD 6 = false) ∧ (s.cond .z = true ↔ s.main.f.getLsbD 6 = true) ∧
    (s.cond .nc = true ↔ s.main.f.getLsbD 0 = false) ∧ (s.cond .c = true ↔ s.main.f.getLsbD 0 = true) ∧
    (s.cond .po = true ↔ s.main.f.getLsbD 2 = false) ∧ (s.cond .pe = true ↔ s.main.f.getLsbD 2 = true) ∧
    (s.cond .p = true ↔ s.main.f.getLsbD 7 = false) ∧ (s.cond .m = true ↔ s.main.f.getLsbD 7 = true) ∧
    [Cond.nz, .z, .nc, .c, .po, .pe, .p, .m].map Cond.code = [0, 1, 2, 3, 4, 5, 6, 7]

/-- JP, JP cc, JR, JR cc, JP (HL), JP (IX), JP (IY) and DJNZ set pc and, but for B in DJNZ, nothing else. Rules R500,
R501, R502, R503, R504, R505, R506, R507. -/
def Obligations.Jumps : Prop :=
  ∀ (s : State) (cc : Cond) (nn : Word) (e : Byte),
    let target : Int := ((s.pc.toNat : Int) + 2 + e.toInt) % 65536
    Runs (.jpNn nn) [0xC3, loByte nn, hiByte nn] s (fun t => t.pc = nn ∧ Frame {} s t) ∧
    Runs (.jpCondNn cc nn) [opByte 3 cc.code 2, loByte nn, hiByte nn] s (fun t =>
      t.pc = (if s.cond cc = true then nn else s.pc + 3) ∧ Frame {} s t) ∧
    Runs (.jrE e) [0x18, e] s (fun t => (t.pc.toNat : Int) = target ∧ Frame {} s t) ∧
    (cc.isRelative = true → Runs (.jrCondE cc e) [opByte 0 (4 + cc.code) 0, e] s (fun t =>
      (if s.cond cc = true then (t.pc.toNat : Int) = target else t.pc = s.pc + 2) ∧ Frame {} s t)) ∧
    Runs .jpHl [0xE9] s (fun t => t.pc = s.hl ∧ Frame {} s t) ∧
    Runs .jpIx [0xDD, 0xE9] s (fun t => t.pc = s.ix ∧ Frame {} s t) ∧
    Runs .jpIy [0xFD, 0xE9] s (fun t => t.pc = s.iy ∧ Frame {} s t) ∧
    Runs (.djnz e) [0x10, e] s (fun t =>
      t.main.b = s.main.b - 1 ∧ (if t.main.b ≠ 0 then (t.pc.toNat : Int) = target else t.pc = s.pc + 2) ∧
        Frame { regs := [.b] } s t)

/-- CALL, CALL cc and RST push the address after them and go to their target. Rules R508, R509, R514. -/
def Obligations.CallsAndRestarts : Prop :=
  ∀ (s : State) (cc : Cond) (nn : Word) (f : BitVec 3),
    Runs (.callNn nn) [0xCD, loByte nn, hiByte nn] s (fun t =>
      t.pc = nn ∧ Pushed s t (s.pc + 3) ∧
        Frame { sp := true, mem := stackCells s, bus := pushWrites s.sp (s.pc + 3) } s t) ∧
    Runs (.callCondNn cc nn) [opByte 3 cc.code 4, loByte nn, hiByte nn] s (fun t =>
      if s.cond cc = true then t.pc = nn ∧ Pushed s t (s.pc + 3) ∧
        Frame { sp := true, mem := stackCells s, bus := pushWrites s.sp (s.pc + 3) } s t
      else t.pc = s.pc + 3 ∧ Frame {} s t) ∧
    Runs (.rst (BitVec.ofNat 16 (f.toNat * 8))) [opByte 3 f 7] s (fun t =>
      t.pc.toNat = f.toNat * 8 ∧ Pushed s t (s.pc + 1) ∧
        Frame { sp := true, mem := stackCells s, bus := pushWrites s.sp (s.pc + 1) } s t)

/-- RET, RET cc, RETI and RETN pop pc; RETN alone copies IFF2 to IFF1. Rules R510, R511, R512, R513. -/
def Obligations.Returns : Prop :=
  ∀ (s : State) (cc : Cond),
    Runs .ret [0xC9] s (fun t => HoldsWord s s.sp t.pc ∧ t.sp = s.sp + 2 ∧
        Frame { sp := true, bus := wordReads s.sp } s t) ∧
    Runs (.retCond cc) [opByte 3 cc.code 0] s (fun t =>
      if s.cond cc = true then HoldsWord s s.sp t.pc ∧ t.sp = s.sp + 2 ∧
        Frame { sp := true, bus := wordReads s.sp } s t
      else t.pc = s.pc + 1 ∧ Frame {} s t) ∧
    Runs .reti [0xED, 0x4D] s (fun t => HoldsWord s s.sp t.pc ∧ t.sp = s.sp + 2 ∧
        Frame { sp := true, bus := wordReads s.sp } s t) ∧
    Runs .retn [0xED, 0x45] s (fun t =>
      HoldsWord s s.sp t.pc ∧ t.sp = s.sp + 2 ∧ t.iff1 = s.iff2 ∧ t.iff2 = s.iff2 ∧
        Frame { sp := true, iff := true, bus := wordReads s.sp } s t)

/-- IN A,(n), IN r,(C), OUT (n),A and OUT (C),r make one port access at their 16-bit address. Rules R540, R541, R546,
R547. -/
def Obligations.PortInputAndOutput : Prop :=
  ∀ (s : State) (r : R8) (n : Byte),
    let portAN : Word := BitVec.ofNat 16 (s.main.a.toNat * 256 + n.toNat)
    Runs (.inAN n) [0xDB, n] s (fun t =>
      t.pc = s.pc + 2 ∧ t.main.a = s.portAnswer portAN ∧ t.portIn = s.portIn.tail ∧
        t.ioTrace = .portRead portAN t.main.a :: s.ioTrace ∧ Frame { regs := [.a], bus := [.input portAN] } s t) ∧
    Runs (.inRC r) [0xED, opByte 1 r.code 0] s (fun t =>
      t.pc = s.pc + 2 ∧ t.reg8 r = s.portAnswer s.bc ∧ t.portIn = s.portIn.tail ∧
        t.ioTrace = .portRead s.bc (t.reg8 r) :: s.ioTrace ∧ SignZero (t.reg8 r) t.flags ∧ t.flags.h = false ∧
        ParityOf (t.reg8 r) t.flags ∧ t.flags.n = false ∧ t.flags.c = s.flags.c ∧
        OpenBits s t ∧ Frame { regs := [r], flags := true, bus := [.input s.bc] } s t) ∧
    Runs (.outNA n) [0xD3, n] s (fun t =>
      t.pc = s.pc + 2 ∧ t.portIn = s.portIn ∧ t.ioTrace = .portWrite portAN s.main.a :: s.ioTrace ∧
        Frame { bus := [.output portAN s.main.a] } s t) ∧
    Runs (.outCR r) [0xED, opByte 1 r.code 1] s (fun t =>
      t.pc = s.pc + 2 ∧ t.portIn = s.portIn ∧ t.ioTrace = .portWrite s.bc (s.reg8 r) :: s.ioTrace ∧
        Frame { bus := [.output s.bc (s.reg8 r)] } s t)

/-- INI, IND, INIR, INDR read port BC into (HL), step HL, count B down; the last two stay while B is not 0. Rules
R542, R543, R544, R545. -/
def Obligations.BlockInput : Prop :=
  ∀ s : State,
    Runs .ini [0xED, 0xA2] s (fun t =>
      t.pc = s.pc + 2 ∧ t.hl = s.hl + 1 ∧ t.main.b = s.main.b - 1 ∧ Stored s t s.hl (s.portAnswer s.bc) ∧
        t.portIn = s.portIn.tail ∧
        ((s.onWriteAt s.hl).handed = false → t.ioTrace = .portRead s.bc (s.portAnswer s.bc) :: s.ioTrace) ∧
        (t.flags.z = true ↔ t.main.b = 0) ∧
        Drawn s t t.flags.s ∧ Drawn s t t.flags.h ∧ Drawn s t t.flags.pv ∧
        (s.blockIoFlags = .documented → t.flags.n = true ∧ t.flags.c = s.flags.c) ∧
        (s.blockIoFlags = .draw → Drawn s t t.flags.n ∧ Drawn s t t.flags.c) ∧
        OpenBits s t ∧
        Frame { regs := [.b, .h, .l], flags := true, mem := [s.hl],
                bus := [.input s.bc, .write s.hl (s.portAnswer s.bc)] } s t) ∧
    Runs .inir [0xED, 0xB2] s (fun t =>
      t.pc = (if t.main.b = 0 then s.pc + 2 else s.pc) ∧ t.hl = s.hl + 1 ∧ t.main.b = s.main.b - 1 ∧
        Stored s t s.hl (s.portAnswer s.bc) ∧
        t.portIn = s.portIn.tail ∧
        ((s.onWriteAt s.hl).handed = false → t.ioTrace = .portRead s.bc (s.portAnswer s.bc) :: s.ioTrace) ∧
        (t.flags.z = true ↔ t.main.b = 0) ∧
        Drawn s t t.flags.s ∧ Drawn s t t.flags.h ∧ Drawn s t t.flags.pv ∧
        (s.blockIoFlags = .documented → t.flags.n = true ∧ t.flags.c = s.flags.c) ∧
        (s.blockIoFlags = .draw → Drawn s t t.flags.n ∧ Drawn s t t.flags.c) ∧
        OpenBits s t ∧
        Frame { regs := [.b, .h, .l], flags := true, mem := [s.hl],
                bus := [.input s.bc, .write s.hl (s.portAnswer s.bc)] } s t) ∧
    Runs .ind [0xED, 0xAA] s (fun t =>
      t.pc = s.pc + 2 ∧ t.hl = s.hl - 1 ∧ t.main.b = s.main.b - 1 ∧ Stored s t s.hl (s.portAnswer s.bc) ∧
        t.portIn = s.portIn.tail ∧
        ((s.onWriteAt s.hl).handed = false → t.ioTrace = .portRead s.bc (s.portAnswer s.bc) :: s.ioTrace) ∧
        (t.flags.z = true ↔ t.main.b = 0) ∧
        Drawn s t t.flags.s ∧ Drawn s t t.flags.h ∧ Drawn s t t.flags.pv ∧
        (s.blockIoFlags = .documented → t.flags.n = true ∧ t.flags.c = s.flags.c) ∧
        (s.blockIoFlags = .draw → Drawn s t t.flags.n ∧ Drawn s t t.flags.c) ∧
        OpenBits s t ∧
        Frame { regs := [.b, .h, .l], flags := true, mem := [s.hl],
                bus := [.input s.bc, .write s.hl (s.portAnswer s.bc)] } s t) ∧
    Runs .indr [0xED, 0xBA] s (fun t =>
      t.pc = (if t.main.b = 0 then s.pc + 2 else s.pc) ∧ t.hl = s.hl - 1 ∧ t.main.b = s.main.b - 1 ∧
        Stored s t s.hl (s.portAnswer s.bc) ∧
        t.portIn = s.portIn.tail ∧
        ((s.onWriteAt s.hl).handed = false → t.ioTrace = .portRead s.bc (s.portAnswer s.bc) :: s.ioTrace) ∧
        (t.flags.z = true ↔ t.main.b = 0) ∧
        Drawn s t t.flags.s ∧ Drawn s t t.flags.h ∧ Drawn s t t.flags.pv ∧
        (s.blockIoFlags = .documented → t.flags.n = true ∧ t.flags.c = s.flags.c) ∧
        (s.blockIoFlags = .draw → Drawn s t t.flags.n ∧ Drawn s t t.flags.c) ∧
        OpenBits s t ∧
        Frame { regs := [.b, .h, .l], flags := true, mem := [s.hl],
                bus := [.input s.bc, .write s.hl (s.portAnswer s.bc)] } s t)

/-- OUTI, OUTD, OTIR, OTDR count B down, send (HL) to port BC, step HL; the last two stay while B is not 0. Rules
R548, R549, R550, R551. -/
def Obligations.BlockOutput : Prop :=
  ∀ s : State,
    Runs .outi [0xED, 0xA3] s (fun t =>
      t.pc = s.pc + 2 ∧ t.hl = s.hl + 1 ∧ t.main.b = s.main.b - 1 ∧
        (s.isDevice s.hl = false → t.ioTrace = .portWrite t.bc (s.readByte s.hl) :: s.ioTrace) ∧
        (t.flags.z = true ↔ t.main.b = 0) ∧
        Drawn s t t.flags.s ∧ Drawn s t t.flags.h ∧ Drawn s t t.flags.pv ∧
        (s.blockIoFlags = .documented → t.flags.n = true ∧ t.flags.c = s.flags.c) ∧
        (s.blockIoFlags = .draw → Drawn s t t.flags.n ∧ Drawn s t t.flags.c) ∧
        OpenBits s t ∧
        Frame { regs := [.b, .h, .l], flags := true, bus := [.read s.hl, .output t.bc (s.readByte s.hl)] } s t) ∧
    Runs .otir [0xED, 0xB3] s (fun t =>
      t.pc = (if t.main.b = 0 then s.pc + 2 else s.pc) ∧ t.hl = s.hl + 1 ∧ t.main.b = s.main.b - 1 ∧
        (s.isDevice s.hl = false → t.ioTrace = .portWrite t.bc (s.readByte s.hl) :: s.ioTrace) ∧
        (t.flags.z = true ↔ t.main.b = 0) ∧
        Drawn s t t.flags.s ∧ Drawn s t t.flags.h ∧ Drawn s t t.flags.pv ∧
        (s.blockIoFlags = .documented → t.flags.n = true ∧ t.flags.c = s.flags.c) ∧
        (s.blockIoFlags = .draw → Drawn s t t.flags.n ∧ Drawn s t t.flags.c) ∧
        OpenBits s t ∧
        Frame { regs := [.b, .h, .l], flags := true, bus := [.read s.hl, .output t.bc (s.readByte s.hl)] } s t) ∧
    Runs .outd [0xED, 0xAB] s (fun t =>
      t.pc = s.pc + 2 ∧ t.hl = s.hl - 1 ∧ t.main.b = s.main.b - 1 ∧
        (s.isDevice s.hl = false → t.ioTrace = .portWrite t.bc (s.readByte s.hl) :: s.ioTrace) ∧
        (t.flags.z = true ↔ t.main.b = 0) ∧
        Drawn s t t.flags.s ∧ Drawn s t t.flags.h ∧ Drawn s t t.flags.pv ∧
        (s.blockIoFlags = .documented → t.flags.n = true ∧ t.flags.c = s.flags.c) ∧
        (s.blockIoFlags = .draw → Drawn s t t.flags.n ∧ Drawn s t t.flags.c) ∧
        OpenBits s t ∧
        Frame { regs := [.b, .h, .l], flags := true, bus := [.read s.hl, .output t.bc (s.readByte s.hl)] } s t) ∧
    Runs .otdr [0xED, 0xBB] s (fun t =>
      t.pc = (if t.main.b = 0 then s.pc + 2 else s.pc) ∧ t.hl = s.hl - 1 ∧ t.main.b = s.main.b - 1 ∧
        (s.isDevice s.hl = false → t.ioTrace = .portWrite t.bc (s.readByte s.hl) :: s.ioTrace) ∧
        (t.flags.z = true ↔ t.main.b = 0) ∧
        Drawn s t t.flags.s ∧ Drawn s t t.flags.h ∧ Drawn s t t.flags.pv ∧
        (s.blockIoFlags = .documented → t.flags.n = true ∧ t.flags.c = s.flags.c) ∧
        (s.blockIoFlags = .draw → Drawn s t t.flags.n ∧ Drawn s t t.flags.c) ∧
        OpenBits s t ∧
        Frame { regs := [.b, .h, .l], flags := true, bus := [.read s.hl, .output t.bc (s.readByte s.hl)] } s t)

end Statements
end

