-- ==== Sys2Proof/Laws/State.lean ====
section
/-! SUPPORT. What each update of the state leaves in each field, one lemma per field and update, all for `simp`, so that
no proof unfolds a record update. -/

namespace Sys2Proof.Machine

/-! ### `s.setReg8 r v` -/

@[simp] theorem State.setReg8_main (s : State) (r : R8) (v : Byte) : (s.setReg8 r v).main = s.main.set r v := rfl
@[simp] theorem State.setReg8_alt (s : State) (r : R8) (v : Byte) : (s.setReg8 r v).alt = s.alt := rfl
@[simp] theorem State.setReg8_ix (s : State) (r : R8) (v : Byte) : (s.setReg8 r v).ix = s.ix := rfl
@[simp] theorem State.setReg8_iy (s : State) (r : R8) (v : Byte) : (s.setReg8 r v).iy = s.iy := rfl
@[simp] theorem State.setReg8_sp (s : State) (r : R8) (v : Byte) : (s.setReg8 r v).sp = s.sp := rfl
@[simp] theorem State.setReg8_pc (s : State) (r : R8) (v : Byte) : (s.setReg8 r v).pc = s.pc := rfl
@[simp] theorem State.setReg8_i (s : State) (r : R8) (v : Byte) : (s.setReg8 r v).i = s.i := rfl
@[simp] theorem State.setReg8_r (s : State) (r : R8) (v : Byte) : (s.setReg8 r v).r = s.r := rfl
@[simp] theorem State.setReg8_iff1 (s : State) (r : R8) (v : Byte) : (s.setReg8 r v).iff1 = s.iff1 := rfl
@[simp] theorem State.setReg8_iff2 (s : State) (r : R8) (v : Byte) : (s.setReg8 r v).iff2 = s.iff2 := rfl
@[simp] theorem State.setReg8_im (s : State) (r : R8) (v : Byte) : (s.setReg8 r v).im = s.im := rfl
@[simp] theorem State.setReg8_halted (s : State) (r : R8) (v : Byte) : (s.setReg8 r v).halted = s.halted := rfl
@[simp] theorem State.setReg8_eiDelay (s : State) (r : R8) (v : Byte) : (s.setReg8 r v).eiDelay = s.eiDelay := rfl
@[simp] theorem State.setReg8_nmiPending (s : State) (r : R8) (v : Byte) : (s.setReg8 r v).nmiPending = s.nmiPending := rfl
@[simp] theorem State.setReg8_mem (s : State) (r : R8) (v : Byte) : (s.setReg8 r v).mem = s.mem := rfl
@[simp] theorem State.setReg8_memMap (s : State) (r : R8) (v : Byte) : (s.setReg8 r v).memMap = s.memMap := rfl
@[simp] theorem State.setReg8_pins (s : State) (r : R8) (v : Byte) : (s.setReg8 r v).pins = s.pins := rfl
@[simp] theorem State.setReg8_portIn (s : State) (r : R8) (v : Byte) : (s.setReg8 r v).portIn = s.portIn := rfl
@[simp] theorem State.setReg8_ioTrace (s : State) (r : R8) (v : Byte) : (s.setReg8 r v).ioTrace = s.ioTrace := rfl
@[simp] theorem State.setReg8_rModel (s : State) (r : R8) (v : Byte) : (s.setReg8 r v).rModel = s.rModel := rfl
@[simp] theorem State.setReg8_blockIoFlags (s : State) (r : R8) (v : Byte) : (s.setReg8 r v).blockIoFlags = s.blockIoFlags := rfl
@[simp] theorem State.setReg8_draws (s : State) (r : R8) (v : Byte) : (s.setReg8 r v).draws = s.draws := rfl

/-! ### `s.setA v` -/

@[simp] theorem State.setA_main (s : State) (v : Byte) : (s.setA v).main = { s.main with a := v } := rfl
@[simp] theorem State.setA_alt (s : State) (v : Byte) : (s.setA v).alt = s.alt := rfl
@[simp] theorem State.setA_ix (s : State) (v : Byte) : (s.setA v).ix = s.ix := rfl
@[simp] theorem State.setA_iy (s : State) (v : Byte) : (s.setA v).iy = s.iy := rfl
@[simp] theorem State.setA_sp (s : State) (v : Byte) : (s.setA v).sp = s.sp := rfl
@[simp] theorem State.setA_pc (s : State) (v : Byte) : (s.setA v).pc = s.pc := rfl
@[simp] theorem State.setA_i (s : State) (v : Byte) : (s.setA v).i = s.i := rfl
@[simp] theorem State.setA_r (s : State) (v : Byte) : (s.setA v).r = s.r := rfl
@[simp] theorem State.setA_iff1 (s : State) (v : Byte) : (s.setA v).iff1 = s.iff1 := rfl
@[simp] theorem State.setA_iff2 (s : State) (v : Byte) : (s.setA v).iff2 = s.iff2 := rfl
@[simp] theorem State.setA_im (s : State) (v : Byte) : (s.setA v).im = s.im := rfl
@[simp] theorem State.setA_halted (s : State) (v : Byte) : (s.setA v).halted = s.halted := rfl
@[simp] theorem State.setA_eiDelay (s : State) (v : Byte) : (s.setA v).eiDelay = s.eiDelay := rfl
@[simp] theorem State.setA_nmiPending (s : State) (v : Byte) : (s.setA v).nmiPending = s.nmiPending := rfl
@[simp] theorem State.setA_mem (s : State) (v : Byte) : (s.setA v).mem = s.mem := rfl
@[simp] theorem State.setA_memMap (s : State) (v : Byte) : (s.setA v).memMap = s.memMap := rfl
@[simp] theorem State.setA_pins (s : State) (v : Byte) : (s.setA v).pins = s.pins := rfl
@[simp] theorem State.setA_portIn (s : State) (v : Byte) : (s.setA v).portIn = s.portIn := rfl
@[simp] theorem State.setA_ioTrace (s : State) (v : Byte) : (s.setA v).ioTrace = s.ioTrace := rfl
@[simp] theorem State.setA_rModel (s : State) (v : Byte) : (s.setA v).rModel = s.rModel := rfl
@[simp] theorem State.setA_blockIoFlags (s : State) (v : Byte) : (s.setA v).blockIoFlags = s.blockIoFlags := rfl
@[simp] theorem State.setA_draws (s : State) (v : Byte) : (s.setA v).draws = s.draws := rfl

/-! ### `s.setB v` -/

@[simp] theorem State.setB_main (s : State) (v : Byte) : (s.setB v).main = { s.main with b := v } := rfl
@[simp] theorem State.setB_alt (s : State) (v : Byte) : (s.setB v).alt = s.alt := rfl
@[simp] theorem State.setB_ix (s : State) (v : Byte) : (s.setB v).ix = s.ix := rfl
@[simp] theorem State.setB_iy (s : State) (v : Byte) : (s.setB v).iy = s.iy := rfl
@[simp] theorem State.setB_sp (s : State) (v : Byte) : (s.setB v).sp = s.sp := rfl
@[simp] theorem State.setB_pc (s : State) (v : Byte) : (s.setB v).pc = s.pc := rfl
@[simp] theorem State.setB_i (s : State) (v : Byte) : (s.setB v).i = s.i := rfl
@[simp] theorem State.setB_r (s : State) (v : Byte) : (s.setB v).r = s.r := rfl
@[simp] theorem State.setB_iff1 (s : State) (v : Byte) : (s.setB v).iff1 = s.iff1 := rfl
@[simp] theorem State.setB_iff2 (s : State) (v : Byte) : (s.setB v).iff2 = s.iff2 := rfl
@[simp] theorem State.setB_im (s : State) (v : Byte) : (s.setB v).im = s.im := rfl
@[simp] theorem State.setB_halted (s : State) (v : Byte) : (s.setB v).halted = s.halted := rfl
@[simp] theorem State.setB_eiDelay (s : State) (v : Byte) : (s.setB v).eiDelay = s.eiDelay := rfl
@[simp] theorem State.setB_nmiPending (s : State) (v : Byte) : (s.setB v).nmiPending = s.nmiPending := rfl
@[simp] theorem State.setB_mem (s : State) (v : Byte) : (s.setB v).mem = s.mem := rfl
@[simp] theorem State.setB_memMap (s : State) (v : Byte) : (s.setB v).memMap = s.memMap := rfl
@[simp] theorem State.setB_pins (s : State) (v : Byte) : (s.setB v).pins = s.pins := rfl
@[simp] theorem State.setB_portIn (s : State) (v : Byte) : (s.setB v).portIn = s.portIn := rfl
@[simp] theorem State.setB_ioTrace (s : State) (v : Byte) : (s.setB v).ioTrace = s.ioTrace := rfl
@[simp] theorem State.setB_rModel (s : State) (v : Byte) : (s.setB v).rModel = s.rModel := rfl
@[simp] theorem State.setB_blockIoFlags (s : State) (v : Byte) : (s.setB v).blockIoFlags = s.blockIoFlags := rfl
@[simp] theorem State.setB_draws (s : State) (v : Byte) : (s.setB v).draws = s.draws := rfl

/-! ### `s.setBC v` -/

@[simp] theorem State.setBC_main (s : State) (v : Word) : (s.setBC v).main = { s.main with b := hiByte v, c := loByte v } := rfl
@[simp] theorem State.setBC_alt (s : State) (v : Word) : (s.setBC v).alt = s.alt := rfl
@[simp] theorem State.setBC_ix (s : State) (v : Word) : (s.setBC v).ix = s.ix := rfl
@[simp] theorem State.setBC_iy (s : State) (v : Word) : (s.setBC v).iy = s.iy := rfl
@[simp] theorem State.setBC_sp (s : State) (v : Word) : (s.setBC v).sp = s.sp := rfl
@[simp] theorem State.setBC_pc (s : State) (v : Word) : (s.setBC v).pc = s.pc := rfl
@[simp] theorem State.setBC_i (s : State) (v : Word) : (s.setBC v).i = s.i := rfl
@[simp] theorem State.setBC_r (s : State) (v : Word) : (s.setBC v).r = s.r := rfl
@[simp] theorem State.setBC_iff1 (s : State) (v : Word) : (s.setBC v).iff1 = s.iff1 := rfl
@[simp] theorem State.setBC_iff2 (s : State) (v : Word) : (s.setBC v).iff2 = s.iff2 := rfl
@[simp] theorem State.setBC_im (s : State) (v : Word) : (s.setBC v).im = s.im := rfl
@[simp] theorem State.setBC_halted (s : State) (v : Word) : (s.setBC v).halted = s.halted := rfl
@[simp] theorem State.setBC_eiDelay (s : State) (v : Word) : (s.setBC v).eiDelay = s.eiDelay := rfl
@[simp] theorem State.setBC_nmiPending (s : State) (v : Word) : (s.setBC v).nmiPending = s.nmiPending := rfl
@[simp] theorem State.setBC_mem (s : State) (v : Word) : (s.setBC v).mem = s.mem := rfl
@[simp] theorem State.setBC_memMap (s : State) (v : Word) : (s.setBC v).memMap = s.memMap := rfl
@[simp] theorem State.setBC_pins (s : State) (v : Word) : (s.setBC v).pins = s.pins := rfl
@[simp] theorem State.setBC_portIn (s : State) (v : Word) : (s.setBC v).portIn = s.portIn := rfl
@[simp] theorem State.setBC_ioTrace (s : State) (v : Word) : (s.setBC v).ioTrace = s.ioTrace := rfl
@[simp] theorem State.setBC_rModel (s : State) (v : Word) : (s.setBC v).rModel = s.rModel := rfl
@[simp] theorem State.setBC_blockIoFlags (s : State) (v : Word) : (s.setBC v).blockIoFlags = s.blockIoFlags := rfl
@[simp] theorem State.setBC_draws (s : State) (v : Word) : (s.setBC v).draws = s.draws := rfl

/-! ### `s.setDE v` -/

@[simp] theorem State.setDE_main (s : State) (v : Word) : (s.setDE v).main = { s.main with d := hiByte v, e := loByte v } := rfl
@[simp] theorem State.setDE_alt (s : State) (v : Word) : (s.setDE v).alt = s.alt := rfl
@[simp] theorem State.setDE_ix (s : State) (v : Word) : (s.setDE v).ix = s.ix := rfl
@[simp] theorem State.setDE_iy (s : State) (v : Word) : (s.setDE v).iy = s.iy := rfl
@[simp] theorem State.setDE_sp (s : State) (v : Word) : (s.setDE v).sp = s.sp := rfl
@[simp] theorem State.setDE_pc (s : State) (v : Word) : (s.setDE v).pc = s.pc := rfl
@[simp] theorem State.setDE_i (s : State) (v : Word) : (s.setDE v).i = s.i := rfl
@[simp] theorem State.setDE_r (s : State) (v : Word) : (s.setDE v).r = s.r := rfl
@[simp] theorem State.setDE_iff1 (s : State) (v : Word) : (s.setDE v).iff1 = s.iff1 := rfl
@[simp] theorem State.setDE_iff2 (s : State) (v : Word) : (s.setDE v).iff2 = s.iff2 := rfl
@[simp] theorem State.setDE_im (s : State) (v : Word) : (s.setDE v).im = s.im := rfl
@[simp] theorem State.setDE_halted (s : State) (v : Word) : (s.setDE v).halted = s.halted := rfl
@[simp] theorem State.setDE_eiDelay (s : State) (v : Word) : (s.setDE v).eiDelay = s.eiDelay := rfl
@[simp] theorem State.setDE_nmiPending (s : State) (v : Word) : (s.setDE v).nmiPending = s.nmiPending := rfl
@[simp] theorem State.setDE_mem (s : State) (v : Word) : (s.setDE v).mem = s.mem := rfl
@[simp] theorem State.setDE_memMap (s : State) (v : Word) : (s.setDE v).memMap = s.memMap := rfl
@[simp] theorem State.setDE_pins (s : State) (v : Word) : (s.setDE v).pins = s.pins := rfl
@[simp] theorem State.setDE_portIn (s : State) (v : Word) : (s.setDE v).portIn = s.portIn := rfl
@[simp] theorem State.setDE_ioTrace (s : State) (v : Word) : (s.setDE v).ioTrace = s.ioTrace := rfl
@[simp] theorem State.setDE_rModel (s : State) (v : Word) : (s.setDE v).rModel = s.rModel := rfl
@[simp] theorem State.setDE_blockIoFlags (s : State) (v : Word) : (s.setDE v).blockIoFlags = s.blockIoFlags := rfl
@[simp] theorem State.setDE_draws (s : State) (v : Word) : (s.setDE v).draws = s.draws := rfl

/-! ### `s.setHL v` -/

@[simp] theorem State.setHL_main (s : State) (v : Word) : (s.setHL v).main = { s.main with h := hiByte v, l := loByte v } := rfl
@[simp] theorem State.setHL_alt (s : State) (v : Word) : (s.setHL v).alt = s.alt := rfl
@[simp] theorem State.setHL_ix (s : State) (v : Word) : (s.setHL v).ix = s.ix := rfl
@[simp] theorem State.setHL_iy (s : State) (v : Word) : (s.setHL v).iy = s.iy := rfl
@[simp] theorem State.setHL_sp (s : State) (v : Word) : (s.setHL v).sp = s.sp := rfl
@[simp] theorem State.setHL_pc (s : State) (v : Word) : (s.setHL v).pc = s.pc := rfl
@[simp] theorem State.setHL_i (s : State) (v : Word) : (s.setHL v).i = s.i := rfl
@[simp] theorem State.setHL_r (s : State) (v : Word) : (s.setHL v).r = s.r := rfl
@[simp] theorem State.setHL_iff1 (s : State) (v : Word) : (s.setHL v).iff1 = s.iff1 := rfl
@[simp] theorem State.setHL_iff2 (s : State) (v : Word) : (s.setHL v).iff2 = s.iff2 := rfl
@[simp] theorem State.setHL_im (s : State) (v : Word) : (s.setHL v).im = s.im := rfl
@[simp] theorem State.setHL_halted (s : State) (v : Word) : (s.setHL v).halted = s.halted := rfl
@[simp] theorem State.setHL_eiDelay (s : State) (v : Word) : (s.setHL v).eiDelay = s.eiDelay := rfl
@[simp] theorem State.setHL_nmiPending (s : State) (v : Word) : (s.setHL v).nmiPending = s.nmiPending := rfl
@[simp] theorem State.setHL_mem (s : State) (v : Word) : (s.setHL v).mem = s.mem := rfl
@[simp] theorem State.setHL_memMap (s : State) (v : Word) : (s.setHL v).memMap = s.memMap := rfl
@[simp] theorem State.setHL_pins (s : State) (v : Word) : (s.setHL v).pins = s.pins := rfl
@[simp] theorem State.setHL_portIn (s : State) (v : Word) : (s.setHL v).portIn = s.portIn := rfl
@[simp] theorem State.setHL_ioTrace (s : State) (v : Word) : (s.setHL v).ioTrace = s.ioTrace := rfl
@[simp] theorem State.setHL_rModel (s : State) (v : Word) : (s.setHL v).rModel = s.rModel := rfl
@[simp] theorem State.setHL_blockIoFlags (s : State) (v : Word) : (s.setHL v).blockIoFlags = s.blockIoFlags := rfl
@[simp] theorem State.setHL_draws (s : State) (v : Word) : (s.setHL v).draws = s.draws := rfl

/-! ### `s.setAF v` -/

@[simp] theorem State.setAF_main (s : State) (v : Word) : (s.setAF v).main = { s.main with a := hiByte v, f := loByte v } := rfl
@[simp] theorem State.setAF_alt (s : State) (v : Word) : (s.setAF v).alt = s.alt := rfl
@[simp] theorem State.setAF_ix (s : State) (v : Word) : (s.setAF v).ix = s.ix := rfl
@[simp] theorem State.setAF_iy (s : State) (v : Word) : (s.setAF v).iy = s.iy := rfl
@[simp] theorem State.setAF_sp (s : State) (v : Word) : (s.setAF v).sp = s.sp := rfl
@[simp] theorem State.setAF_pc (s : State) (v : Word) : (s.setAF v).pc = s.pc := rfl
@[simp] theorem State.setAF_i (s : State) (v : Word) : (s.setAF v).i = s.i := rfl
@[simp] theorem State.setAF_r (s : State) (v : Word) : (s.setAF v).r = s.r := rfl
@[simp] theorem State.setAF_iff1 (s : State) (v : Word) : (s.setAF v).iff1 = s.iff1 := rfl
@[simp] theorem State.setAF_iff2 (s : State) (v : Word) : (s.setAF v).iff2 = s.iff2 := rfl
@[simp] theorem State.setAF_im (s : State) (v : Word) : (s.setAF v).im = s.im := rfl
@[simp] theorem State.setAF_halted (s : State) (v : Word) : (s.setAF v).halted = s.halted := rfl
@[simp] theorem State.setAF_eiDelay (s : State) (v : Word) : (s.setAF v).eiDelay = s.eiDelay := rfl
@[simp] theorem State.setAF_nmiPending (s : State) (v : Word) : (s.setAF v).nmiPending = s.nmiPending := rfl
@[simp] theorem State.setAF_mem (s : State) (v : Word) : (s.setAF v).mem = s.mem := rfl
@[simp] theorem State.setAF_memMap (s : State) (v : Word) : (s.setAF v).memMap = s.memMap := rfl
@[simp] theorem State.setAF_pins (s : State) (v : Word) : (s.setAF v).pins = s.pins := rfl
@[simp] theorem State.setAF_portIn (s : State) (v : Word) : (s.setAF v).portIn = s.portIn := rfl
@[simp] theorem State.setAF_ioTrace (s : State) (v : Word) : (s.setAF v).ioTrace = s.ioTrace := rfl
@[simp] theorem State.setAF_rModel (s : State) (v : Word) : (s.setAF v).rModel = s.rModel := rfl
@[simp] theorem State.setAF_blockIoFlags (s : State) (v : Word) : (s.setAF v).blockIoFlags = s.blockIoFlags := rfl
@[simp] theorem State.setAF_draws (s : State) (v : Word) : (s.setAF v).draws = s.draws := rfl

/-! ### `s.setSP v` -/

@[simp] theorem State.setSP_main (s : State) (v : Word) : (s.setSP v).main = s.main := rfl
@[simp] theorem State.setSP_alt (s : State) (v : Word) : (s.setSP v).alt = s.alt := rfl
@[simp] theorem State.setSP_ix (s : State) (v : Word) : (s.setSP v).ix = s.ix := rfl
@[simp] theorem State.setSP_iy (s : State) (v : Word) : (s.setSP v).iy = s.iy := rfl
@[simp] theorem State.setSP_sp (s : State) (v : Word) : (s.setSP v).sp = v := rfl
@[simp] theorem State.setSP_pc (s : State) (v : Word) : (s.setSP v).pc = s.pc := rfl
@[simp] theorem State.setSP_i (s : State) (v : Word) : (s.setSP v).i = s.i := rfl
@[simp] theorem State.setSP_r (s : State) (v : Word) : (s.setSP v).r = s.r := rfl
@[simp] theorem State.setSP_iff1 (s : State) (v : Word) : (s.setSP v).iff1 = s.iff1 := rfl
@[simp] theorem State.setSP_iff2 (s : State) (v : Word) : (s.setSP v).iff2 = s.iff2 := rfl
@[simp] theorem State.setSP_im (s : State) (v : Word) : (s.setSP v).im = s.im := rfl
@[simp] theorem State.setSP_halted (s : State) (v : Word) : (s.setSP v).halted = s.halted := rfl
@[simp] theorem State.setSP_eiDelay (s : State) (v : Word) : (s.setSP v).eiDelay = s.eiDelay := rfl
@[simp] theorem State.setSP_nmiPending (s : State) (v : Word) : (s.setSP v).nmiPending = s.nmiPending := rfl
@[simp] theorem State.setSP_mem (s : State) (v : Word) : (s.setSP v).mem = s.mem := rfl
@[simp] theorem State.setSP_memMap (s : State) (v : Word) : (s.setSP v).memMap = s.memMap := rfl
@[simp] theorem State.setSP_pins (s : State) (v : Word) : (s.setSP v).pins = s.pins := rfl
@[simp] theorem State.setSP_portIn (s : State) (v : Word) : (s.setSP v).portIn = s.portIn := rfl
@[simp] theorem State.setSP_ioTrace (s : State) (v : Word) : (s.setSP v).ioTrace = s.ioTrace := rfl
@[simp] theorem State.setSP_rModel (s : State) (v : Word) : (s.setSP v).rModel = s.rModel := rfl
@[simp] theorem State.setSP_blockIoFlags (s : State) (v : Word) : (s.setSP v).blockIoFlags = s.blockIoFlags := rfl
@[simp] theorem State.setSP_draws (s : State) (v : Word) : (s.setSP v).draws = s.draws := rfl

/-! ### `s.setIX v` -/

@[simp] theorem State.setIX_main (s : State) (v : Word) : (s.setIX v).main = s.main := rfl
@[simp] theorem State.setIX_alt (s : State) (v : Word) : (s.setIX v).alt = s.alt := rfl
@[simp] theorem State.setIX_ix (s : State) (v : Word) : (s.setIX v).ix = v := rfl
@[simp] theorem State.setIX_iy (s : State) (v : Word) : (s.setIX v).iy = s.iy := rfl
@[simp] theorem State.setIX_sp (s : State) (v : Word) : (s.setIX v).sp = s.sp := rfl
@[simp] theorem State.setIX_pc (s : State) (v : Word) : (s.setIX v).pc = s.pc := rfl
@[simp] theorem State.setIX_i (s : State) (v : Word) : (s.setIX v).i = s.i := rfl
@[simp] theorem State.setIX_r (s : State) (v : Word) : (s.setIX v).r = s.r := rfl
@[simp] theorem State.setIX_iff1 (s : State) (v : Word) : (s.setIX v).iff1 = s.iff1 := rfl
@[simp] theorem State.setIX_iff2 (s : State) (v : Word) : (s.setIX v).iff2 = s.iff2 := rfl
@[simp] theorem State.setIX_im (s : State) (v : Word) : (s.setIX v).im = s.im := rfl
@[simp] theorem State.setIX_halted (s : State) (v : Word) : (s.setIX v).halted = s.halted := rfl
@[simp] theorem State.setIX_eiDelay (s : State) (v : Word) : (s.setIX v).eiDelay = s.eiDelay := rfl
@[simp] theorem State.setIX_nmiPending (s : State) (v : Word) : (s.setIX v).nmiPending = s.nmiPending := rfl
@[simp] theorem State.setIX_mem (s : State) (v : Word) : (s.setIX v).mem = s.mem := rfl
@[simp] theorem State.setIX_memMap (s : State) (v : Word) : (s.setIX v).memMap = s.memMap := rfl
@[simp] theorem State.setIX_pins (s : State) (v : Word) : (s.setIX v).pins = s.pins := rfl
@[simp] theorem State.setIX_portIn (s : State) (v : Word) : (s.setIX v).portIn = s.portIn := rfl
@[simp] theorem State.setIX_ioTrace (s : State) (v : Word) : (s.setIX v).ioTrace = s.ioTrace := rfl
@[simp] theorem State.setIX_rModel (s : State) (v : Word) : (s.setIX v).rModel = s.rModel := rfl
@[simp] theorem State.setIX_blockIoFlags (s : State) (v : Word) : (s.setIX v).blockIoFlags = s.blockIoFlags := rfl
@[simp] theorem State.setIX_draws (s : State) (v : Word) : (s.setIX v).draws = s.draws := rfl

/-! ### `s.setIY v` -/

@[simp] theorem State.setIY_main (s : State) (v : Word) : (s.setIY v).main = s.main := rfl
@[simp] theorem State.setIY_alt (s : State) (v : Word) : (s.setIY v).alt = s.alt := rfl
@[simp] theorem State.setIY_ix (s : State) (v : Word) : (s.setIY v).ix = s.ix := rfl
@[simp] theorem State.setIY_iy (s : State) (v : Word) : (s.setIY v).iy = v := rfl
@[simp] theorem State.setIY_sp (s : State) (v : Word) : (s.setIY v).sp = s.sp := rfl
@[simp] theorem State.setIY_pc (s : State) (v : Word) : (s.setIY v).pc = s.pc := rfl
@[simp] theorem State.setIY_i (s : State) (v : Word) : (s.setIY v).i = s.i := rfl
@[simp] theorem State.setIY_r (s : State) (v : Word) : (s.setIY v).r = s.r := rfl
@[simp] theorem State.setIY_iff1 (s : State) (v : Word) : (s.setIY v).iff1 = s.iff1 := rfl
@[simp] theorem State.setIY_iff2 (s : State) (v : Word) : (s.setIY v).iff2 = s.iff2 := rfl
@[simp] theorem State.setIY_im (s : State) (v : Word) : (s.setIY v).im = s.im := rfl
@[simp] theorem State.setIY_halted (s : State) (v : Word) : (s.setIY v).halted = s.halted := rfl
@[simp] theorem State.setIY_eiDelay (s : State) (v : Word) : (s.setIY v).eiDelay = s.eiDelay := rfl
@[simp] theorem State.setIY_nmiPending (s : State) (v : Word) : (s.setIY v).nmiPending = s.nmiPending := rfl
@[simp] theorem State.setIY_mem (s : State) (v : Word) : (s.setIY v).mem = s.mem := rfl
@[simp] theorem State.setIY_memMap (s : State) (v : Word) : (s.setIY v).memMap = s.memMap := rfl
@[simp] theorem State.setIY_pins (s : State) (v : Word) : (s.setIY v).pins = s.pins := rfl
@[simp] theorem State.setIY_portIn (s : State) (v : Word) : (s.setIY v).portIn = s.portIn := rfl
@[simp] theorem State.setIY_ioTrace (s : State) (v : Word) : (s.setIY v).ioTrace = s.ioTrace := rfl
@[simp] theorem State.setIY_rModel (s : State) (v : Word) : (s.setIY v).rModel = s.rModel := rfl
@[simp] theorem State.setIY_blockIoFlags (s : State) (v : Word) : (s.setIY v).blockIoFlags = s.blockIoFlags := rfl
@[simp] theorem State.setIY_draws (s : State) (v : Word) : (s.setIY v).draws = s.draws := rfl

/-! ### `s.setI v` -/

@[simp] theorem State.setI_main (s : State) (v : Byte) : (s.setI v).main = s.main := rfl
@[simp] theorem State.setI_alt (s : State) (v : Byte) : (s.setI v).alt = s.alt := rfl
@[simp] theorem State.setI_ix (s : State) (v : Byte) : (s.setI v).ix = s.ix := rfl
@[simp] theorem State.setI_iy (s : State) (v : Byte) : (s.setI v).iy = s.iy := rfl
@[simp] theorem State.setI_sp (s : State) (v : Byte) : (s.setI v).sp = s.sp := rfl
@[simp] theorem State.setI_pc (s : State) (v : Byte) : (s.setI v).pc = s.pc := rfl
@[simp] theorem State.setI_i (s : State) (v : Byte) : (s.setI v).i = v := rfl
@[simp] theorem State.setI_r (s : State) (v : Byte) : (s.setI v).r = s.r := rfl
@[simp] theorem State.setI_iff1 (s : State) (v : Byte) : (s.setI v).iff1 = s.iff1 := rfl
@[simp] theorem State.setI_iff2 (s : State) (v : Byte) : (s.setI v).iff2 = s.iff2 := rfl
@[simp] theorem State.setI_im (s : State) (v : Byte) : (s.setI v).im = s.im := rfl
@[simp] theorem State.setI_halted (s : State) (v : Byte) : (s.setI v).halted = s.halted := rfl
@[simp] theorem State.setI_eiDelay (s : State) (v : Byte) : (s.setI v).eiDelay = s.eiDelay := rfl
@[simp] theorem State.setI_nmiPending (s : State) (v : Byte) : (s.setI v).nmiPending = s.nmiPending := rfl
@[simp] theorem State.setI_mem (s : State) (v : Byte) : (s.setI v).mem = s.mem := rfl
@[simp] theorem State.setI_memMap (s : State) (v : Byte) : (s.setI v).memMap = s.memMap := rfl
@[simp] theorem State.setI_pins (s : State) (v : Byte) : (s.setI v).pins = s.pins := rfl
@[simp] theorem State.setI_portIn (s : State) (v : Byte) : (s.setI v).portIn = s.portIn := rfl
@[simp] theorem State.setI_ioTrace (s : State) (v : Byte) : (s.setI v).ioTrace = s.ioTrace := rfl
@[simp] theorem State.setI_rModel (s : State) (v : Byte) : (s.setI v).rModel = s.rModel := rfl
@[simp] theorem State.setI_blockIoFlags (s : State) (v : Byte) : (s.setI v).blockIoFlags = s.blockIoFlags := rfl
@[simp] theorem State.setI_draws (s : State) (v : Byte) : (s.setI v).draws = s.draws := rfl

/-! ### `s.setR v` -/

@[simp] theorem State.setR_main (s : State) (v : Byte) : (s.setR v).main = s.main := rfl
@[simp] theorem State.setR_alt (s : State) (v : Byte) : (s.setR v).alt = s.alt := rfl
@[simp] theorem State.setR_ix (s : State) (v : Byte) : (s.setR v).ix = s.ix := rfl
@[simp] theorem State.setR_iy (s : State) (v : Byte) : (s.setR v).iy = s.iy := rfl
@[simp] theorem State.setR_sp (s : State) (v : Byte) : (s.setR v).sp = s.sp := rfl
@[simp] theorem State.setR_pc (s : State) (v : Byte) : (s.setR v).pc = s.pc := rfl
@[simp] theorem State.setR_i (s : State) (v : Byte) : (s.setR v).i = s.i := rfl
@[simp] theorem State.setR_r (s : State) (v : Byte) : (s.setR v).r = v := rfl
@[simp] theorem State.setR_iff1 (s : State) (v : Byte) : (s.setR v).iff1 = s.iff1 := rfl
@[simp] theorem State.setR_iff2 (s : State) (v : Byte) : (s.setR v).iff2 = s.iff2 := rfl
@[simp] theorem State.setR_im (s : State) (v : Byte) : (s.setR v).im = s.im := rfl
@[simp] theorem State.setR_halted (s : State) (v : Byte) : (s.setR v).halted = s.halted := rfl
@[simp] theorem State.setR_eiDelay (s : State) (v : Byte) : (s.setR v).eiDelay = s.eiDelay := rfl
@[simp] theorem State.setR_nmiPending (s : State) (v : Byte) : (s.setR v).nmiPending = s.nmiPending := rfl
@[simp] theorem State.setR_mem (s : State) (v : Byte) : (s.setR v).mem = s.mem := rfl
@[simp] theorem State.setR_memMap (s : State) (v : Byte) : (s.setR v).memMap = s.memMap := rfl
@[simp] theorem State.setR_pins (s : State) (v : Byte) : (s.setR v).pins = s.pins := rfl
@[simp] theorem State.setR_portIn (s : State) (v : Byte) : (s.setR v).portIn = s.portIn := rfl
@[simp] theorem State.setR_ioTrace (s : State) (v : Byte) : (s.setR v).ioTrace = s.ioTrace := rfl
@[simp] theorem State.setR_rModel (s : State) (v : Byte) : (s.setR v).rModel = s.rModel := rfl
@[simp] theorem State.setR_blockIoFlags (s : State) (v : Byte) : (s.setR v).blockIoFlags = s.blockIoFlags := rfl
@[simp] theorem State.setR_draws (s : State) (v : Byte) : (s.setR v).draws = s.draws := rfl

/-! ### `s.setIff one two` -/

@[simp] theorem State.setIff_main (s : State) (one two : Bool) : (s.setIff one two).main = s.main := rfl
@[simp] theorem State.setIff_alt (s : State) (one two : Bool) : (s.setIff one two).alt = s.alt := rfl
@[simp] theorem State.setIff_ix (s : State) (one two : Bool) : (s.setIff one two).ix = s.ix := rfl
@[simp] theorem State.setIff_iy (s : State) (one two : Bool) : (s.setIff one two).iy = s.iy := rfl
@[simp] theorem State.setIff_sp (s : State) (one two : Bool) : (s.setIff one two).sp = s.sp := rfl
@[simp] theorem State.setIff_pc (s : State) (one two : Bool) : (s.setIff one two).pc = s.pc := rfl
@[simp] theorem State.setIff_i (s : State) (one two : Bool) : (s.setIff one two).i = s.i := rfl
@[simp] theorem State.setIff_r (s : State) (one two : Bool) : (s.setIff one two).r = s.r := rfl
@[simp] theorem State.setIff_iff1 (s : State) (one two : Bool) : (s.setIff one two).iff1 = one := rfl
@[simp] theorem State.setIff_iff2 (s : State) (one two : Bool) : (s.setIff one two).iff2 = two := rfl
@[simp] theorem State.setIff_im (s : State) (one two : Bool) : (s.setIff one two).im = s.im := rfl
@[simp] theorem State.setIff_halted (s : State) (one two : Bool) : (s.setIff one two).halted = s.halted := rfl
@[simp] theorem State.setIff_eiDelay (s : State) (one two : Bool) : (s.setIff one two).eiDelay = s.eiDelay := rfl
@[simp] theorem State.setIff_nmiPending (s : State) (one two : Bool) : (s.setIff one two).nmiPending = s.nmiPending := rfl
@[simp] theorem State.setIff_mem (s : State) (one two : Bool) : (s.setIff one two).mem = s.mem := rfl
@[simp] theorem State.setIff_memMap (s : State) (one two : Bool) : (s.setIff one two).memMap = s.memMap := rfl
@[simp] theorem State.setIff_pins (s : State) (one two : Bool) : (s.setIff one two).pins = s.pins := rfl
@[simp] theorem State.setIff_portIn (s : State) (one two : Bool) : (s.setIff one two).portIn = s.portIn := rfl
@[simp] theorem State.setIff_ioTrace (s : State) (one two : Bool) : (s.setIff one two).ioTrace = s.ioTrace := rfl
@[simp] theorem State.setIff_rModel (s : State) (one two : Bool) : (s.setIff one two).rModel = s.rModel := rfl
@[simp] theorem State.setIff_blockIoFlags (s : State) (one two : Bool) : (s.setIff one two).blockIoFlags = s.blockIoFlags := rfl
@[simp] theorem State.setIff_draws (s : State) (one two : Bool) : (s.setIff one two).draws = s.draws := rfl

/-! ### `s.setIM m` -/

@[simp] theorem State.setIM_main (s : State) (m : IntMode) : (s.setIM m).main = s.main := rfl
@[simp] theorem State.setIM_alt (s : State) (m : IntMode) : (s.setIM m).alt = s.alt := rfl
@[simp] theorem State.setIM_ix (s : State) (m : IntMode) : (s.setIM m).ix = s.ix := rfl
@[simp] theorem State.setIM_iy (s : State) (m : IntMode) : (s.setIM m).iy = s.iy := rfl
@[simp] theorem State.setIM_sp (s : State) (m : IntMode) : (s.setIM m).sp = s.sp := rfl
@[simp] theorem State.setIM_pc (s : State) (m : IntMode) : (s.setIM m).pc = s.pc := rfl
@[simp] theorem State.setIM_i (s : State) (m : IntMode) : (s.setIM m).i = s.i := rfl
@[simp] theorem State.setIM_r (s : State) (m : IntMode) : (s.setIM m).r = s.r := rfl
@[simp] theorem State.setIM_iff1 (s : State) (m : IntMode) : (s.setIM m).iff1 = s.iff1 := rfl
@[simp] theorem State.setIM_iff2 (s : State) (m : IntMode) : (s.setIM m).iff2 = s.iff2 := rfl
@[simp] theorem State.setIM_im (s : State) (m : IntMode) : (s.setIM m).im = m := rfl
@[simp] theorem State.setIM_halted (s : State) (m : IntMode) : (s.setIM m).halted = s.halted := rfl
@[simp] theorem State.setIM_eiDelay (s : State) (m : IntMode) : (s.setIM m).eiDelay = s.eiDelay := rfl
@[simp] theorem State.setIM_nmiPending (s : State) (m : IntMode) : (s.setIM m).nmiPending = s.nmiPending := rfl
@[simp] theorem State.setIM_mem (s : State) (m : IntMode) : (s.setIM m).mem = s.mem := rfl
@[simp] theorem State.setIM_memMap (s : State) (m : IntMode) : (s.setIM m).memMap = s.memMap := rfl
@[simp] theorem State.setIM_pins (s : State) (m : IntMode) : (s.setIM m).pins = s.pins := rfl
@[simp] theorem State.setIM_portIn (s : State) (m : IntMode) : (s.setIM m).portIn = s.portIn := rfl
@[simp] theorem State.setIM_ioTrace (s : State) (m : IntMode) : (s.setIM m).ioTrace = s.ioTrace := rfl
@[simp] theorem State.setIM_rModel (s : State) (m : IntMode) : (s.setIM m).rModel = s.rModel := rfl
@[simp] theorem State.setIM_blockIoFlags (s : State) (m : IntMode) : (s.setIM m).blockIoFlags = s.blockIoFlags := rfl
@[simp] theorem State.setIM_draws (s : State) (m : IntMode) : (s.setIM m).draws = s.draws := rfl

/-! ### `s.setHalted v` -/

@[simp] theorem State.setHalted_main (s : State) (v : Bool) : (s.setHalted v).main = s.main := rfl
@[simp] theorem State.setHalted_alt (s : State) (v : Bool) : (s.setHalted v).alt = s.alt := rfl
@[simp] theorem State.setHalted_ix (s : State) (v : Bool) : (s.setHalted v).ix = s.ix := rfl
@[simp] theorem State.setHalted_iy (s : State) (v : Bool) : (s.setHalted v).iy = s.iy := rfl
@[simp] theorem State.setHalted_sp (s : State) (v : Bool) : (s.setHalted v).sp = s.sp := rfl
@[simp] theorem State.setHalted_pc (s : State) (v : Bool) : (s.setHalted v).pc = s.pc := rfl
@[simp] theorem State.setHalted_i (s : State) (v : Bool) : (s.setHalted v).i = s.i := rfl
@[simp] theorem State.setHalted_r (s : State) (v : Bool) : (s.setHalted v).r = s.r := rfl
@[simp] theorem State.setHalted_iff1 (s : State) (v : Bool) : (s.setHalted v).iff1 = s.iff1 := rfl
@[simp] theorem State.setHalted_iff2 (s : State) (v : Bool) : (s.setHalted v).iff2 = s.iff2 := rfl
@[simp] theorem State.setHalted_im (s : State) (v : Bool) : (s.setHalted v).im = s.im := rfl
@[simp] theorem State.setHalted_halted (s : State) (v : Bool) : (s.setHalted v).halted = v := rfl
@[simp] theorem State.setHalted_eiDelay (s : State) (v : Bool) : (s.setHalted v).eiDelay = s.eiDelay := rfl
@[simp] theorem State.setHalted_nmiPending (s : State) (v : Bool) : (s.setHalted v).nmiPending = s.nmiPending := rfl
@[simp] theorem State.setHalted_mem (s : State) (v : Bool) : (s.setHalted v).mem = s.mem := rfl
@[simp] theorem State.setHalted_memMap (s : State) (v : Bool) : (s.setHalted v).memMap = s.memMap := rfl
@[simp] theorem State.setHalted_pins (s : State) (v : Bool) : (s.setHalted v).pins = s.pins := rfl
@[simp] theorem State.setHalted_portIn (s : State) (v : Bool) : (s.setHalted v).portIn = s.portIn := rfl
@[simp] theorem State.setHalted_ioTrace (s : State) (v : Bool) : (s.setHalted v).ioTrace = s.ioTrace := rfl
@[simp] theorem State.setHalted_rModel (s : State) (v : Bool) : (s.setHalted v).rModel = s.rModel := rfl
@[simp] theorem State.setHalted_blockIoFlags (s : State) (v : Bool) : (s.setHalted v).blockIoFlags = s.blockIoFlags := rfl
@[simp] theorem State.setHalted_draws (s : State) (v : Bool) : (s.setHalted v).draws = s.draws := rfl

/-! ### `s.setEiDelay v` -/

@[simp] theorem State.setEiDelay_main (s : State) (v : Bool) : (s.setEiDelay v).main = s.main := rfl
@[simp] theorem State.setEiDelay_alt (s : State) (v : Bool) : (s.setEiDelay v).alt = s.alt := rfl
@[simp] theorem State.setEiDelay_ix (s : State) (v : Bool) : (s.setEiDelay v).ix = s.ix := rfl
@[simp] theorem State.setEiDelay_iy (s : State) (v : Bool) : (s.setEiDelay v).iy = s.iy := rfl
@[simp] theorem State.setEiDelay_sp (s : State) (v : Bool) : (s.setEiDelay v).sp = s.sp := rfl
@[simp] theorem State.setEiDelay_pc (s : State) (v : Bool) : (s.setEiDelay v).pc = s.pc := rfl
@[simp] theorem State.setEiDelay_i (s : State) (v : Bool) : (s.setEiDelay v).i = s.i := rfl
@[simp] theorem State.setEiDelay_r (s : State) (v : Bool) : (s.setEiDelay v).r = s.r := rfl
@[simp] theorem State.setEiDelay_iff1 (s : State) (v : Bool) : (s.setEiDelay v).iff1 = s.iff1 := rfl
@[simp] theorem State.setEiDelay_iff2 (s : State) (v : Bool) : (s.setEiDelay v).iff2 = s.iff2 := rfl
@[simp] theorem State.setEiDelay_im (s : State) (v : Bool) : (s.setEiDelay v).im = s.im := rfl
@[simp] theorem State.setEiDelay_halted (s : State) (v : Bool) : (s.setEiDelay v).halted = s.halted := rfl
@[simp] theorem State.setEiDelay_eiDelay (s : State) (v : Bool) : (s.setEiDelay v).eiDelay = v := rfl
@[simp] theorem State.setEiDelay_nmiPending (s : State) (v : Bool) : (s.setEiDelay v).nmiPending = s.nmiPending := rfl
@[simp] theorem State.setEiDelay_mem (s : State) (v : Bool) : (s.setEiDelay v).mem = s.mem := rfl
@[simp] theorem State.setEiDelay_memMap (s : State) (v : Bool) : (s.setEiDelay v).memMap = s.memMap := rfl
@[simp] theorem State.setEiDelay_pins (s : State) (v : Bool) : (s.setEiDelay v).pins = s.pins := rfl
@[simp] theorem State.setEiDelay_portIn (s : State) (v : Bool) : (s.setEiDelay v).portIn = s.portIn := rfl
@[simp] theorem State.setEiDelay_ioTrace (s : State) (v : Bool) : (s.setEiDelay v).ioTrace = s.ioTrace := rfl
@[simp] theorem State.setEiDelay_rModel (s : State) (v : Bool) : (s.setEiDelay v).rModel = s.rModel := rfl
@[simp] theorem State.setEiDelay_blockIoFlags (s : State) (v : Bool) : (s.setEiDelay v).blockIoFlags = s.blockIoFlags := rfl
@[simp] theorem State.setEiDelay_draws (s : State) (v : Bool) : (s.setEiDelay v).draws = s.draws := rfl

/-! ### `s.setFlags fl` -/

@[simp] theorem State.setFlags_main (s : State) (fl : Flags) : (s.setFlags fl).main = { s.main with f := fl.pack (Config.freeBit s.draws) (Config.freeBit (s.draws + 1)) } := rfl
@[simp] theorem State.setFlags_alt (s : State) (fl : Flags) : (s.setFlags fl).alt = s.alt := rfl
@[simp] theorem State.setFlags_ix (s : State) (fl : Flags) : (s.setFlags fl).ix = s.ix := rfl
@[simp] theorem State.setFlags_iy (s : State) (fl : Flags) : (s.setFlags fl).iy = s.iy := rfl
@[simp] theorem State.setFlags_sp (s : State) (fl : Flags) : (s.setFlags fl).sp = s.sp := rfl
@[simp] theorem State.setFlags_pc (s : State) (fl : Flags) : (s.setFlags fl).pc = s.pc := rfl
@[simp] theorem State.setFlags_i (s : State) (fl : Flags) : (s.setFlags fl).i = s.i := rfl
@[simp] theorem State.setFlags_r (s : State) (fl : Flags) : (s.setFlags fl).r = s.r := rfl
@[simp] theorem State.setFlags_iff1 (s : State) (fl : Flags) : (s.setFlags fl).iff1 = s.iff1 := rfl
@[simp] theorem State.setFlags_iff2 (s : State) (fl : Flags) : (s.setFlags fl).iff2 = s.iff2 := rfl
@[simp] theorem State.setFlags_im (s : State) (fl : Flags) : (s.setFlags fl).im = s.im := rfl
@[simp] theorem State.setFlags_halted (s : State) (fl : Flags) : (s.setFlags fl).halted = s.halted := rfl
@[simp] theorem State.setFlags_eiDelay (s : State) (fl : Flags) : (s.setFlags fl).eiDelay = s.eiDelay := rfl
@[simp] theorem State.setFlags_nmiPending (s : State) (fl : Flags) : (s.setFlags fl).nmiPending = s.nmiPending := rfl
@[simp] theorem State.setFlags_mem (s : State) (fl : Flags) : (s.setFlags fl).mem = s.mem := rfl
@[simp] theorem State.setFlags_memMap (s : State) (fl : Flags) : (s.setFlags fl).memMap = s.memMap := rfl
@[simp] theorem State.setFlags_pins (s : State) (fl : Flags) : (s.setFlags fl).pins = s.pins := rfl
@[simp] theorem State.setFlags_portIn (s : State) (fl : Flags) : (s.setFlags fl).portIn = s.portIn := rfl
@[simp] theorem State.setFlags_ioTrace (s : State) (fl : Flags) : (s.setFlags fl).ioTrace = s.ioTrace := rfl
@[simp] theorem State.setFlags_rModel (s : State) (fl : Flags) : (s.setFlags fl).rModel = s.rModel := rfl
@[simp] theorem State.setFlags_blockIoFlags (s : State) (fl : Flags) : (s.setFlags fl).blockIoFlags = s.blockIoFlags := rfl
@[simp] theorem State.setFlags_draws (s : State) (fl : Flags) : (s.setFlags fl).draws = s.draws + 2 := rfl

/-! ### `s.drew n` -/

@[simp] theorem State.drew_main (s : State) (n : Nat) : (s.drew n).main = s.main := rfl
@[simp] theorem State.drew_alt (s : State) (n : Nat) : (s.drew n).alt = s.alt := rfl
@[simp] theorem State.drew_ix (s : State) (n : Nat) : (s.drew n).ix = s.ix := rfl
@[simp] theorem State.drew_iy (s : State) (n : Nat) : (s.drew n).iy = s.iy := rfl
@[simp] theorem State.drew_sp (s : State) (n : Nat) : (s.drew n).sp = s.sp := rfl
@[simp] theorem State.drew_pc (s : State) (n : Nat) : (s.drew n).pc = s.pc := rfl
@[simp] theorem State.drew_i (s : State) (n : Nat) : (s.drew n).i = s.i := rfl
@[simp] theorem State.drew_r (s : State) (n : Nat) : (s.drew n).r = s.r := rfl
@[simp] theorem State.drew_iff1 (s : State) (n : Nat) : (s.drew n).iff1 = s.iff1 := rfl
@[simp] theorem State.drew_iff2 (s : State) (n : Nat) : (s.drew n).iff2 = s.iff2 := rfl
@[simp] theorem State.drew_im (s : State) (n : Nat) : (s.drew n).im = s.im := rfl
@[simp] theorem State.drew_halted (s : State) (n : Nat) : (s.drew n).halted = s.halted := rfl
@[simp] theorem State.drew_eiDelay (s : State) (n : Nat) : (s.drew n).eiDelay = s.eiDelay := rfl
@[simp] theorem State.drew_nmiPending (s : State) (n : Nat) : (s.drew n).nmiPending = s.nmiPending := rfl
@[simp] theorem State.drew_mem (s : State) (n : Nat) : (s.drew n).mem = s.mem := rfl
@[simp] theorem State.drew_memMap (s : State) (n : Nat) : (s.drew n).memMap = s.memMap := rfl
@[simp] theorem State.drew_pins (s : State) (n : Nat) : (s.drew n).pins = s.pins := rfl
@[simp] theorem State.drew_portIn (s : State) (n : Nat) : (s.drew n).portIn = s.portIn := rfl
@[simp] theorem State.drew_ioTrace (s : State) (n : Nat) : (s.drew n).ioTrace = s.ioTrace := rfl
@[simp] theorem State.drew_rModel (s : State) (n : Nat) : (s.drew n).rModel = s.rModel := rfl
@[simp] theorem State.drew_blockIoFlags (s : State) (n : Nat) : (s.drew n).blockIoFlags = s.blockIoFlags := rfl
@[simp] theorem State.drew_draws (s : State) (n : Nat) : (s.drew n).draws = s.draws + n := rfl

/-! ### `s.jump a` -/

@[simp] theorem State.jump_main (s : State) (a : Word) : (s.jump a).main = s.main := rfl
@[simp] theorem State.jump_alt (s : State) (a : Word) : (s.jump a).alt = s.alt := rfl
@[simp] theorem State.jump_ix (s : State) (a : Word) : (s.jump a).ix = s.ix := rfl
@[simp] theorem State.jump_iy (s : State) (a : Word) : (s.jump a).iy = s.iy := rfl
@[simp] theorem State.jump_sp (s : State) (a : Word) : (s.jump a).sp = s.sp := rfl
@[simp] theorem State.jump_pc (s : State) (a : Word) : (s.jump a).pc = a := rfl
@[simp] theorem State.jump_i (s : State) (a : Word) : (s.jump a).i = s.i := rfl
@[simp] theorem State.jump_r (s : State) (a : Word) : (s.jump a).r = s.r := rfl
@[simp] theorem State.jump_iff1 (s : State) (a : Word) : (s.jump a).iff1 = s.iff1 := rfl
@[simp] theorem State.jump_iff2 (s : State) (a : Word) : (s.jump a).iff2 = s.iff2 := rfl
@[simp] theorem State.jump_im (s : State) (a : Word) : (s.jump a).im = s.im := rfl
@[simp] theorem State.jump_halted (s : State) (a : Word) : (s.jump a).halted = s.halted := rfl
@[simp] theorem State.jump_eiDelay (s : State) (a : Word) : (s.jump a).eiDelay = s.eiDelay := rfl
@[simp] theorem State.jump_nmiPending (s : State) (a : Word) : (s.jump a).nmiPending = s.nmiPending := rfl
@[simp] theorem State.jump_mem (s : State) (a : Word) : (s.jump a).mem = s.mem := rfl
@[simp] theorem State.jump_memMap (s : State) (a : Word) : (s.jump a).memMap = s.memMap := rfl
@[simp] theorem State.jump_pins (s : State) (a : Word) : (s.jump a).pins = s.pins := rfl
@[simp] theorem State.jump_portIn (s : State) (a : Word) : (s.jump a).portIn = s.portIn := rfl
@[simp] theorem State.jump_ioTrace (s : State) (a : Word) : (s.jump a).ioTrace = s.ioTrace := rfl
@[simp] theorem State.jump_rModel (s : State) (a : Word) : (s.jump a).rModel = s.rModel := rfl
@[simp] theorem State.jump_blockIoFlags (s : State) (a : Word) : (s.jump a).blockIoFlags = s.blockIoFlags := rfl
@[simp] theorem State.jump_draws (s : State) (a : Word) : (s.jump a).draws = s.draws := rfl

/-! ### `s.advance n` -/

@[simp] theorem State.advance_main (s : State) (n : Word) : (s.advance n).main = s.main := rfl
@[simp] theorem State.advance_alt (s : State) (n : Word) : (s.advance n).alt = s.alt := rfl
@[simp] theorem State.advance_ix (s : State) (n : Word) : (s.advance n).ix = s.ix := rfl
@[simp] theorem State.advance_iy (s : State) (n : Word) : (s.advance n).iy = s.iy := rfl
@[simp] theorem State.advance_sp (s : State) (n : Word) : (s.advance n).sp = s.sp := rfl
@[simp] theorem State.advance_pc (s : State) (n : Word) : (s.advance n).pc = s.pc + n := rfl
@[simp] theorem State.advance_i (s : State) (n : Word) : (s.advance n).i = s.i := rfl
@[simp] theorem State.advance_r (s : State) (n : Word) : (s.advance n).r = s.r := rfl
@[simp] theorem State.advance_iff1 (s : State) (n : Word) : (s.advance n).iff1 = s.iff1 := rfl
@[simp] theorem State.advance_iff2 (s : State) (n : Word) : (s.advance n).iff2 = s.iff2 := rfl
@[simp] theorem State.advance_im (s : State) (n : Word) : (s.advance n).im = s.im := rfl
@[simp] theorem State.advance_halted (s : State) (n : Word) : (s.advance n).halted = s.halted := rfl
@[simp] theorem State.advance_eiDelay (s : State) (n : Word) : (s.advance n).eiDelay = s.eiDelay := rfl
@[simp] theorem State.advance_nmiPending (s : State) (n : Word) : (s.advance n).nmiPending = s.nmiPending := rfl
@[simp] theorem State.advance_mem (s : State) (n : Word) : (s.advance n).mem = s.mem := rfl
@[simp] theorem State.advance_memMap (s : State) (n : Word) : (s.advance n).memMap = s.memMap := rfl
@[simp] theorem State.advance_pins (s : State) (n : Word) : (s.advance n).pins = s.pins := rfl
@[simp] theorem State.advance_portIn (s : State) (n : Word) : (s.advance n).portIn = s.portIn := rfl
@[simp] theorem State.advance_ioTrace (s : State) (n : Word) : (s.advance n).ioTrace = s.ioTrace := rfl
@[simp] theorem State.advance_rModel (s : State) (n : Word) : (s.advance n).rModel = s.rModel := rfl
@[simp] theorem State.advance_blockIoFlags (s : State) (n : Word) : (s.advance n).blockIoFlags = s.blockIoFlags := rfl
@[simp] theorem State.advance_draws (s : State) (n : Word) : (s.advance n).draws = s.draws := rfl

/-! ### `s.portWrite port v` -/

@[simp] theorem State.portWrite_main (s : State) (port : Word) (v : Byte) : (s.portWrite port v).main = s.main := rfl
@[simp] theorem State.portWrite_alt (s : State) (port : Word) (v : Byte) : (s.portWrite port v).alt = s.alt := rfl
@[simp] theorem State.portWrite_ix (s : State) (port : Word) (v : Byte) : (s.portWrite port v).ix = s.ix := rfl
@[simp] theorem State.portWrite_iy (s : State) (port : Word) (v : Byte) : (s.portWrite port v).iy = s.iy := rfl
@[simp] theorem State.portWrite_sp (s : State) (port : Word) (v : Byte) : (s.portWrite port v).sp = s.sp := rfl
@[simp] theorem State.portWrite_pc (s : State) (port : Word) (v : Byte) : (s.portWrite port v).pc = s.pc := rfl
@[simp] theorem State.portWrite_i (s : State) (port : Word) (v : Byte) : (s.portWrite port v).i = s.i := rfl
@[simp] theorem State.portWrite_r (s : State) (port : Word) (v : Byte) : (s.portWrite port v).r = s.r := rfl
@[simp] theorem State.portWrite_iff1 (s : State) (port : Word) (v : Byte) : (s.portWrite port v).iff1 = s.iff1 := rfl
@[simp] theorem State.portWrite_iff2 (s : State) (port : Word) (v : Byte) : (s.portWrite port v).iff2 = s.iff2 := rfl
@[simp] theorem State.portWrite_im (s : State) (port : Word) (v : Byte) : (s.portWrite port v).im = s.im := rfl
@[simp] theorem State.portWrite_halted (s : State) (port : Word) (v : Byte) : (s.portWrite port v).halted = s.halted := rfl
@[simp] theorem State.portWrite_eiDelay (s : State) (port : Word) (v : Byte) : (s.portWrite port v).eiDelay = s.eiDelay := rfl
@[simp] theorem State.portWrite_nmiPending (s : State) (port : Word) (v : Byte) : (s.portWrite port v).nmiPending = s.nmiPending := rfl
@[simp] theorem State.portWrite_mem (s : State) (port : Word) (v : Byte) : (s.portWrite port v).mem = s.mem := rfl
@[simp] theorem State.portWrite_memMap (s : State) (port : Word) (v : Byte) : (s.portWrite port v).memMap = s.memMap := rfl
@[simp] theorem State.portWrite_pins (s : State) (port : Word) (v : Byte) : (s.portWrite port v).pins = s.pins := rfl
@[simp] theorem State.portWrite_portIn (s : State) (port : Word) (v : Byte) : (s.portWrite port v).portIn = s.portIn := rfl
@[simp] theorem State.portWrite_ioTrace (s : State) (port : Word) (v : Byte) : (s.portWrite port v).ioTrace = .portWrite port v :: s.ioTrace := rfl
@[simp] theorem State.portWrite_rModel (s : State) (port : Word) (v : Byte) : (s.portWrite port v).rModel = s.rModel := rfl
@[simp] theorem State.portWrite_blockIoFlags (s : State) (port : Word) (v : Byte) : (s.portWrite port v).blockIoFlags = s.blockIoFlags := rfl
@[simp] theorem State.portWrite_draws (s : State) (port : Word) (v : Byte) : (s.portWrite port v).draws = s.draws := rfl

/-! ### `s.afterPortRead port` -/

@[simp] theorem State.afterPortRead_main (s : State) (port : Word) : (s.afterPortRead port).main = s.main := rfl
@[simp] theorem State.afterPortRead_alt (s : State) (port : Word) : (s.afterPortRead port).alt = s.alt := rfl
@[simp] theorem State.afterPortRead_ix (s : State) (port : Word) : (s.afterPortRead port).ix = s.ix := rfl
@[simp] theorem State.afterPortRead_iy (s : State) (port : Word) : (s.afterPortRead port).iy = s.iy := rfl
@[simp] theorem State.afterPortRead_sp (s : State) (port : Word) : (s.afterPortRead port).sp = s.sp := rfl
@[simp] theorem State.afterPortRead_pc (s : State) (port : Word) : (s.afterPortRead port).pc = s.pc := rfl
@[simp] theorem State.afterPortRead_i (s : State) (port : Word) : (s.afterPortRead port).i = s.i := rfl
@[simp] theorem State.afterPortRead_r (s : State) (port : Word) : (s.afterPortRead port).r = s.r := rfl
@[simp] theorem State.afterPortRead_iff1 (s : State) (port : Word) : (s.afterPortRead port).iff1 = s.iff1 := rfl
@[simp] theorem State.afterPortRead_iff2 (s : State) (port : Word) : (s.afterPortRead port).iff2 = s.iff2 := rfl
@[simp] theorem State.afterPortRead_im (s : State) (port : Word) : (s.afterPortRead port).im = s.im := rfl
@[simp] theorem State.afterPortRead_halted (s : State) (port : Word) : (s.afterPortRead port).halted = s.halted := rfl
@[simp] theorem State.afterPortRead_eiDelay (s : State) (port : Word) : (s.afterPortRead port).eiDelay = s.eiDelay := rfl
@[simp] theorem State.afterPortRead_nmiPending (s : State) (port : Word) : (s.afterPortRead port).nmiPending = s.nmiPending := rfl
@[simp] theorem State.afterPortRead_mem (s : State) (port : Word) : (s.afterPortRead port).mem = s.mem := rfl
@[simp] theorem State.afterPortRead_memMap (s : State) (port : Word) : (s.afterPortRead port).memMap = s.memMap := rfl
@[simp] theorem State.afterPortRead_pins (s : State) (port : Word) : (s.afterPortRead port).pins = s.pins := rfl
@[simp] theorem State.afterPortRead_portIn (s : State) (port : Word) : (s.afterPortRead port).portIn = s.portIn.tail := rfl
@[simp] theorem State.afterPortRead_ioTrace (s : State) (port : Word) : (s.afterPortRead port).ioTrace = .portRead port (s.portAnswer port) :: s.ioTrace := rfl
@[simp] theorem State.afterPortRead_rModel (s : State) (port : Word) : (s.afterPortRead port).rModel = s.rModel := rfl
@[simp] theorem State.afterPortRead_blockIoFlags (s : State) (port : Word) : (s.afterPortRead port).blockIoFlags = s.blockIoFlags := rfl
@[simp] theorem State.afterPortRead_draws (s : State) (port : Word) : (s.afterPortRead port).draws = s.draws := rfl

/-! ### `s.note e` -/

@[simp] theorem State.note_main (s : State) (e : IoEvent) : (s.note e).main = s.main := rfl
@[simp] theorem State.note_alt (s : State) (e : IoEvent) : (s.note e).alt = s.alt := rfl
@[simp] theorem State.note_ix (s : State) (e : IoEvent) : (s.note e).ix = s.ix := rfl
@[simp] theorem State.note_iy (s : State) (e : IoEvent) : (s.note e).iy = s.iy := rfl
@[simp] theorem State.note_sp (s : State) (e : IoEvent) : (s.note e).sp = s.sp := rfl
@[simp] theorem State.note_pc (s : State) (e : IoEvent) : (s.note e).pc = s.pc := rfl
@[simp] theorem State.note_i (s : State) (e : IoEvent) : (s.note e).i = s.i := rfl
@[simp] theorem State.note_r (s : State) (e : IoEvent) : (s.note e).r = s.r := rfl
@[simp] theorem State.note_iff1 (s : State) (e : IoEvent) : (s.note e).iff1 = s.iff1 := rfl
@[simp] theorem State.note_iff2 (s : State) (e : IoEvent) : (s.note e).iff2 = s.iff2 := rfl
@[simp] theorem State.note_im (s : State) (e : IoEvent) : (s.note e).im = s.im := rfl
@[simp] theorem State.note_halted (s : State) (e : IoEvent) : (s.note e).halted = s.halted := rfl
@[simp] theorem State.note_eiDelay (s : State) (e : IoEvent) : (s.note e).eiDelay = s.eiDelay := rfl
@[simp] theorem State.note_nmiPending (s : State) (e : IoEvent) : (s.note e).nmiPending = s.nmiPending := rfl
@[simp] theorem State.note_mem (s : State) (e : IoEvent) : (s.note e).mem = s.mem := rfl
@[simp] theorem State.note_memMap (s : State) (e : IoEvent) : (s.note e).memMap = s.memMap := rfl
@[simp] theorem State.note_pins (s : State) (e : IoEvent) : (s.note e).pins = s.pins := rfl
@[simp] theorem State.note_portIn (s : State) (e : IoEvent) : (s.note e).portIn = s.portIn := rfl
@[simp] theorem State.note_ioTrace (s : State) (e : IoEvent) : (s.note e).ioTrace = e :: s.ioTrace := rfl
@[simp] theorem State.note_rModel (s : State) (e : IoEvent) : (s.note e).rModel = s.rModel := rfl
@[simp] theorem State.note_blockIoFlags (s : State) (e : IoEvent) : (s.note e).blockIoFlags = s.blockIoFlags := rfl
@[simp] theorem State.note_draws (s : State) (e : IoEvent) : (s.note e).draws = s.draws := rfl

/-! ### `s.sample` -/

@[simp] theorem State.sample_main (s : State) : (s.sample).main = s.main := rfl
@[simp] theorem State.sample_alt (s : State) : (s.sample).alt = s.alt := rfl
@[simp] theorem State.sample_ix (s : State) : (s.sample).ix = s.ix := rfl
@[simp] theorem State.sample_iy (s : State) : (s.sample).iy = s.iy := rfl
@[simp] theorem State.sample_sp (s : State) : (s.sample).sp = s.sp := rfl
@[simp] theorem State.sample_pc (s : State) : (s.sample).pc = s.pc := rfl
@[simp] theorem State.sample_i (s : State) : (s.sample).i = s.i := rfl
@[simp] theorem State.sample_r (s : State) : (s.sample).r = s.r := rfl
@[simp] theorem State.sample_iff1 (s : State) : (s.sample).iff1 = s.iff1 := rfl
@[simp] theorem State.sample_iff2 (s : State) : (s.sample).iff2 = s.iff2 := rfl
@[simp] theorem State.sample_im (s : State) : (s.sample).im = s.im := rfl
@[simp] theorem State.sample_halted (s : State) : (s.sample).halted = s.halted := rfl
@[simp] theorem State.sample_eiDelay (s : State) : (s.sample).eiDelay = s.eiDelay := rfl
@[simp] theorem State.sample_nmiPending (s : State) : (s.sample).nmiPending = (s.nmiPending || s.sampledPins.nmiEdge) := rfl
@[simp] theorem State.sample_mem (s : State) : (s.sample).mem = s.mem := rfl
@[simp] theorem State.sample_memMap (s : State) : (s.sample).memMap = s.memMap := rfl
@[simp] theorem State.sample_pins (s : State) : (s.sample).pins = s.pins.tail := rfl
@[simp] theorem State.sample_portIn (s : State) : (s.sample).portIn = s.portIn := rfl
@[simp] theorem State.sample_ioTrace (s : State) : (s.sample).ioTrace = s.ioTrace := rfl
@[simp] theorem State.sample_rModel (s : State) : (s.sample).rModel = s.rModel := rfl
@[simp] theorem State.sample_blockIoFlags (s : State) : (s.sample).blockIoFlags = s.blockIoFlags := rfl
@[simp] theorem State.sample_draws (s : State) : (s.sample).draws = s.draws := rfl

/-! ### `s.afterRead a` -/

@[simp] theorem State.afterRead_main (s : State) (a : Word) : (s.afterRead a).main = s.main := by unfold State.afterRead; split <;> rfl
@[simp] theorem State.afterRead_alt (s : State) (a : Word) : (s.afterRead a).alt = s.alt := by unfold State.afterRead; split <;> rfl
@[simp] theorem State.afterRead_ix (s : State) (a : Word) : (s.afterRead a).ix = s.ix := by unfold State.afterRead; split <;> rfl
@[simp] theorem State.afterRead_iy (s : State) (a : Word) : (s.afterRead a).iy = s.iy := by unfold State.afterRead; split <;> rfl
@[simp] theorem State.afterRead_sp (s : State) (a : Word) : (s.afterRead a).sp = s.sp := by unfold State.afterRead; split <;> rfl
@[simp] theorem State.afterRead_pc (s : State) (a : Word) : (s.afterRead a).pc = s.pc := by unfold State.afterRead; split <;> rfl
@[simp] theorem State.afterRead_i (s : State) (a : Word) : (s.afterRead a).i = s.i := by unfold State.afterRead; split <;> rfl
@[simp] theorem State.afterRead_r (s : State) (a : Word) : (s.afterRead a).r = s.r := by unfold State.afterRead; split <;> rfl
@[simp] theorem State.afterRead_iff1 (s : State) (a : Word) : (s.afterRead a).iff1 = s.iff1 := by unfold State.afterRead; split <;> rfl
@[simp] theorem State.afterRead_iff2 (s : State) (a : Word) : (s.afterRead a).iff2 = s.iff2 := by unfold State.afterRead; split <;> rfl
@[simp] theorem State.afterRead_im (s : State) (a : Word) : (s.afterRead a).im = s.im := by unfold State.afterRead; split <;> rfl
@[simp] theorem State.afterRead_halted (s : State) (a : Word) : (s.afterRead a).halted = s.halted := by unfold State.afterRead; split <;> rfl
@[simp] theorem State.afterRead_eiDelay (s : State) (a : Word) : (s.afterRead a).eiDelay = s.eiDelay := by unfold State.afterRead; split <;> rfl
@[simp] theorem State.afterRead_nmiPending (s : State) (a : Word) : (s.afterRead a).nmiPending = s.nmiPending := by unfold State.afterRead; split <;> rfl
@[simp] theorem State.afterRead_mem (s : State) (a : Word) : (s.afterRead a).mem = s.mem := by unfold State.afterRead; split <;> rfl
@[simp] theorem State.afterRead_memMap (s : State) (a : Word) : (s.afterRead a).memMap = s.memMap := by unfold State.afterRead; split <;> rfl
@[simp] theorem State.afterRead_pins (s : State) (a : Word) : (s.afterRead a).pins = s.pins := by unfold State.afterRead; split <;> rfl
@[simp] theorem State.afterRead_portIn (s : State) (a : Word) : (s.afterRead a).portIn = s.portIn := by unfold State.afterRead; split <;> rfl
@[simp] theorem State.afterRead_ioTrace (s : State) (a : Word) : (s.afterRead a).ioTrace = if s.isDevice a then .memRead a (s.readByte a) :: s.ioTrace else s.ioTrace := by unfold State.afterRead; split <;> rfl
@[simp] theorem State.afterRead_rModel (s : State) (a : Word) : (s.afterRead a).rModel = s.rModel := by unfold State.afterRead; split <;> rfl
@[simp] theorem State.afterRead_blockIoFlags (s : State) (a : Word) : (s.afterRead a).blockIoFlags = s.blockIoFlags := by unfold State.afterRead; split <;> rfl
@[simp] theorem State.afterRead_draws (s : State) (a : Word) : (s.afterRead a).draws = s.draws := by unfold State.afterRead; split <;> rfl

/-! ### `s.handWrite a v` -/

@[simp] theorem State.handWrite_main (s : State) (a : Word) (v : Byte) : (s.handWrite a v).main = s.main := by unfold State.handWrite; split <;> rfl
@[simp] theorem State.handWrite_alt (s : State) (a : Word) (v : Byte) : (s.handWrite a v).alt = s.alt := by unfold State.handWrite; split <;> rfl
@[simp] theorem State.handWrite_ix (s : State) (a : Word) (v : Byte) : (s.handWrite a v).ix = s.ix := by unfold State.handWrite; split <;> rfl
@[simp] theorem State.handWrite_iy (s : State) (a : Word) (v : Byte) : (s.handWrite a v).iy = s.iy := by unfold State.handWrite; split <;> rfl
@[simp] theorem State.handWrite_sp (s : State) (a : Word) (v : Byte) : (s.handWrite a v).sp = s.sp := by unfold State.handWrite; split <;> rfl
@[simp] theorem State.handWrite_pc (s : State) (a : Word) (v : Byte) : (s.handWrite a v).pc = s.pc := by unfold State.handWrite; split <;> rfl
@[simp] theorem State.handWrite_i (s : State) (a : Word) (v : Byte) : (s.handWrite a v).i = s.i := by unfold State.handWrite; split <;> rfl
@[simp] theorem State.handWrite_r (s : State) (a : Word) (v : Byte) : (s.handWrite a v).r = s.r := by unfold State.handWrite; split <;> rfl
@[simp] theorem State.handWrite_iff1 (s : State) (a : Word) (v : Byte) : (s.handWrite a v).iff1 = s.iff1 := by unfold State.handWrite; split <;> rfl
@[simp] theorem State.handWrite_iff2 (s : State) (a : Word) (v : Byte) : (s.handWrite a v).iff2 = s.iff2 := by unfold State.handWrite; split <;> rfl
@[simp] theorem State.handWrite_im (s : State) (a : Word) (v : Byte) : (s.handWrite a v).im = s.im := by unfold State.handWrite; split <;> rfl
@[simp] theorem State.handWrite_halted (s : State) (a : Word) (v : Byte) : (s.handWrite a v).halted = s.halted := by unfold State.handWrite; split <;> rfl
@[simp] theorem State.handWrite_eiDelay (s : State) (a : Word) (v : Byte) : (s.handWrite a v).eiDelay = s.eiDelay := by unfold State.handWrite; split <;> rfl
@[simp] theorem State.handWrite_nmiPending (s : State) (a : Word) (v : Byte) : (s.handWrite a v).nmiPending = s.nmiPending := by unfold State.handWrite; split <;> rfl
@[simp] theorem State.handWrite_mem (s : State) (a : Word) (v : Byte) : (s.handWrite a v).mem = s.mem := by unfold State.handWrite; split <;> rfl
@[simp] theorem State.handWrite_memMap (s : State) (a : Word) (v : Byte) : (s.handWrite a v).memMap = s.memMap := by unfold State.handWrite; split <;> rfl
@[simp] theorem State.handWrite_pins (s : State) (a : Word) (v : Byte) : (s.handWrite a v).pins = s.pins := by unfold State.handWrite; split <;> rfl
@[simp] theorem State.handWrite_portIn (s : State) (a : Word) (v : Byte) : (s.handWrite a v).portIn = s.portIn := by unfold State.handWrite; split <;> rfl
@[simp] theorem State.handWrite_ioTrace (s : State) (a : Word) (v : Byte) : (s.handWrite a v).ioTrace = if (s.onWriteAt a).handed then .memWrite a v :: s.ioTrace else s.ioTrace := by unfold State.handWrite; split <;> rfl
@[simp] theorem State.handWrite_rModel (s : State) (a : Word) (v : Byte) : (s.handWrite a v).rModel = s.rModel := by unfold State.handWrite; split <;> rfl
@[simp] theorem State.handWrite_blockIoFlags (s : State) (a : Word) (v : Byte) : (s.handWrite a v).blockIoFlags = s.blockIoFlags := by unfold State.handWrite; split <;> rfl
@[simp] theorem State.handWrite_draws (s : State) (a : Word) (v : Byte) : (s.handWrite a v).draws = s.draws := by unfold State.handWrite; split <;> rfl

/-! ### `s.keepWrite a v` -/

@[simp] theorem State.keepWrite_main (s : State) (a : Word) (v : Byte) : (s.keepWrite a v).main = s.main := by unfold State.keepWrite; split <;> rfl
@[simp] theorem State.keepWrite_alt (s : State) (a : Word) (v : Byte) : (s.keepWrite a v).alt = s.alt := by unfold State.keepWrite; split <;> rfl
@[simp] theorem State.keepWrite_ix (s : State) (a : Word) (v : Byte) : (s.keepWrite a v).ix = s.ix := by unfold State.keepWrite; split <;> rfl
@[simp] theorem State.keepWrite_iy (s : State) (a : Word) (v : Byte) : (s.keepWrite a v).iy = s.iy := by unfold State.keepWrite; split <;> rfl
@[simp] theorem State.keepWrite_sp (s : State) (a : Word) (v : Byte) : (s.keepWrite a v).sp = s.sp := by unfold State.keepWrite; split <;> rfl
@[simp] theorem State.keepWrite_pc (s : State) (a : Word) (v : Byte) : (s.keepWrite a v).pc = s.pc := by unfold State.keepWrite; split <;> rfl
@[simp] theorem State.keepWrite_i (s : State) (a : Word) (v : Byte) : (s.keepWrite a v).i = s.i := by unfold State.keepWrite; split <;> rfl
@[simp] theorem State.keepWrite_r (s : State) (a : Word) (v : Byte) : (s.keepWrite a v).r = s.r := by unfold State.keepWrite; split <;> rfl
@[simp] theorem State.keepWrite_iff1 (s : State) (a : Word) (v : Byte) : (s.keepWrite a v).iff1 = s.iff1 := by unfold State.keepWrite; split <;> rfl
@[simp] theorem State.keepWrite_iff2 (s : State) (a : Word) (v : Byte) : (s.keepWrite a v).iff2 = s.iff2 := by unfold State.keepWrite; split <;> rfl
@[simp] theorem State.keepWrite_im (s : State) (a : Word) (v : Byte) : (s.keepWrite a v).im = s.im := by unfold State.keepWrite; split <;> rfl
@[simp] theorem State.keepWrite_halted (s : State) (a : Word) (v : Byte) : (s.keepWrite a v).halted = s.halted := by unfold State.keepWrite; split <;> rfl
@[simp] theorem State.keepWrite_eiDelay (s : State) (a : Word) (v : Byte) : (s.keepWrite a v).eiDelay = s.eiDelay := by unfold State.keepWrite; split <;> rfl
@[simp] theorem State.keepWrite_nmiPending (s : State) (a : Word) (v : Byte) : (s.keepWrite a v).nmiPending = s.nmiPending := by unfold State.keepWrite; split <;> rfl
@[simp] theorem State.keepWrite_mem (s : State) (a : Word) (v : Byte) : (s.keepWrite a v).mem = if (s.onWriteAt a).kept then Memory.write s.mem a.toNat v else s.mem := by unfold State.keepWrite; split <;> rfl
@[simp] theorem State.keepWrite_memMap (s : State) (a : Word) (v : Byte) : (s.keepWrite a v).memMap = s.memMap := by unfold State.keepWrite; split <;> rfl
@[simp] theorem State.keepWrite_pins (s : State) (a : Word) (v : Byte) : (s.keepWrite a v).pins = s.pins := by unfold State.keepWrite; split <;> rfl
@[simp] theorem State.keepWrite_portIn (s : State) (a : Word) (v : Byte) : (s.keepWrite a v).portIn = s.portIn := by unfold State.keepWrite; split <;> rfl
@[simp] theorem State.keepWrite_ioTrace (s : State) (a : Word) (v : Byte) : (s.keepWrite a v).ioTrace = s.ioTrace := by unfold State.keepWrite; split <;> rfl
@[simp] theorem State.keepWrite_rModel (s : State) (a : Word) (v : Byte) : (s.keepWrite a v).rModel = s.rModel := by unfold State.keepWrite; split <;> rfl
@[simp] theorem State.keepWrite_blockIoFlags (s : State) (a : Word) (v : Byte) : (s.keepWrite a v).blockIoFlags = s.blockIoFlags := by unfold State.keepWrite; split <;> rfl
@[simp] theorem State.keepWrite_draws (s : State) (a : Word) (v : Byte) : (s.keepWrite a v).draws = s.draws := by unfold State.keepWrite; split <;> rfl

/-! ### `s.countFetches n` -/

@[simp] theorem State.countFetches_main (s : State) (n : Byte) : (s.countFetches n).main = s.main := by unfold State.countFetches; split <;> rfl
@[simp] theorem State.countFetches_alt (s : State) (n : Byte) : (s.countFetches n).alt = s.alt := by unfold State.countFetches; split <;> rfl
@[simp] theorem State.countFetches_ix (s : State) (n : Byte) : (s.countFetches n).ix = s.ix := by unfold State.countFetches; split <;> rfl
@[simp] theorem State.countFetches_iy (s : State) (n : Byte) : (s.countFetches n).iy = s.iy := by unfold State.countFetches; split <;> rfl
@[simp] theorem State.countFetches_sp (s : State) (n : Byte) : (s.countFetches n).sp = s.sp := by unfold State.countFetches; split <;> rfl
@[simp] theorem State.countFetches_pc (s : State) (n : Byte) : (s.countFetches n).pc = s.pc := by unfold State.countFetches; split <;> rfl
@[simp] theorem State.countFetches_i (s : State) (n : Byte) : (s.countFetches n).i = s.i := by unfold State.countFetches; split <;> rfl
@[simp] theorem State.countFetches_iff1 (s : State) (n : Byte) : (s.countFetches n).iff1 = s.iff1 := by unfold State.countFetches; split <;> rfl
@[simp] theorem State.countFetches_iff2 (s : State) (n : Byte) : (s.countFetches n).iff2 = s.iff2 := by unfold State.countFetches; split <;> rfl
@[simp] theorem State.countFetches_im (s : State) (n : Byte) : (s.countFetches n).im = s.im := by unfold State.countFetches; split <;> rfl
@[simp] theorem State.countFetches_halted (s : State) (n : Byte) : (s.countFetches n).halted = s.halted := by unfold State.countFetches; split <;> rfl
@[simp] theorem State.countFetches_eiDelay (s : State) (n : Byte) : (s.countFetches n).eiDelay = s.eiDelay := by unfold State.countFetches; split <;> rfl
@[simp] theorem State.countFetches_nmiPending (s : State) (n : Byte) : (s.countFetches n).nmiPending = s.nmiPending := by unfold State.countFetches; split <;> rfl
@[simp] theorem State.countFetches_mem (s : State) (n : Byte) : (s.countFetches n).mem = s.mem := by unfold State.countFetches; split <;> rfl
@[simp] theorem State.countFetches_memMap (s : State) (n : Byte) : (s.countFetches n).memMap = s.memMap := by unfold State.countFetches; split <;> rfl
@[simp] theorem State.countFetches_pins (s : State) (n : Byte) : (s.countFetches n).pins = s.pins := by unfold State.countFetches; split <;> rfl
@[simp] theorem State.countFetches_portIn (s : State) (n : Byte) : (s.countFetches n).portIn = s.portIn := by unfold State.countFetches; split <;> rfl
@[simp] theorem State.countFetches_ioTrace (s : State) (n : Byte) : (s.countFetches n).ioTrace = s.ioTrace := by unfold State.countFetches; split <;> rfl
@[simp] theorem State.countFetches_rModel (s : State) (n : Byte) : (s.countFetches n).rModel = s.rModel := by unfold State.countFetches; split <;> rfl
@[simp] theorem State.countFetches_blockIoFlags (s : State) (n : Byte) : (s.countFetches n).blockIoFlags = s.blockIoFlags := by unfold State.countFetches; split <;> rfl
@[simp] theorem State.countFetches_draws (s : State) (n : Byte) : (s.countFetches n).draws = s.draws := by unfold State.countFetches; split <;> rfl

/-! ### `s.afterReadR` -/

@[simp] theorem State.afterReadR_main (s : State) : (s.afterReadR).main = s.main := by unfold State.afterReadR; split <;> rfl
@[simp] theorem State.afterReadR_alt (s : State) : (s.afterReadR).alt = s.alt := by unfold State.afterReadR; split <;> rfl
@[simp] theorem State.afterReadR_ix (s : State) : (s.afterReadR).ix = s.ix := by unfold State.afterReadR; split <;> rfl
@[simp] theorem State.afterReadR_iy (s : State) : (s.afterReadR).iy = s.iy := by unfold State.afterReadR; split <;> rfl
@[simp] theorem State.afterReadR_sp (s : State) : (s.afterReadR).sp = s.sp := by unfold State.afterReadR; split <;> rfl
@[simp] theorem State.afterReadR_pc (s : State) : (s.afterReadR).pc = s.pc := by unfold State.afterReadR; split <;> rfl
@[simp] theorem State.afterReadR_i (s : State) : (s.afterReadR).i = s.i := by unfold State.afterReadR; split <;> rfl
@[simp] theorem State.afterReadR_r (s : State) : (s.afterReadR).r = s.r := by unfold State.afterReadR; split <;> rfl
@[simp] theorem State.afterReadR_iff1 (s : State) : (s.afterReadR).iff1 = s.iff1 := by unfold State.afterReadR; split <;> rfl
@[simp] theorem State.afterReadR_iff2 (s : State) : (s.afterReadR).iff2 = s.iff2 := by unfold State.afterReadR; split <;> rfl
@[simp] theorem State.afterReadR_im (s : State) : (s.afterReadR).im = s.im := by unfold State.afterReadR; split <;> rfl
@[simp] theorem State.afterReadR_halted (s : State) : (s.afterReadR).halted = s.halted := by unfold State.afterReadR; split <;> rfl
@[simp] theorem State.afterReadR_eiDelay (s : State) : (s.afterReadR).eiDelay = s.eiDelay := by unfold State.afterReadR; split <;> rfl
@[simp] theorem State.afterReadR_nmiPending (s : State) : (s.afterReadR).nmiPending = s.nmiPending := by unfold State.afterReadR; split <;> rfl
@[simp] theorem State.afterReadR_mem (s : State) : (s.afterReadR).mem = s.mem := by unfold State.afterReadR; split <;> rfl
@[simp] theorem State.afterReadR_memMap (s : State) : (s.afterReadR).memMap = s.memMap := by unfold State.afterReadR; split <;> rfl
@[simp] theorem State.afterReadR_pins (s : State) : (s.afterReadR).pins = s.pins := by unfold State.afterReadR; split <;> rfl
@[simp] theorem State.afterReadR_portIn (s : State) : (s.afterReadR).portIn = s.portIn := by unfold State.afterReadR; split <;> rfl
@[simp] theorem State.afterReadR_ioTrace (s : State) : (s.afterReadR).ioTrace = s.ioTrace := by unfold State.afterReadR; split <;> rfl
@[simp] theorem State.afterReadR_rModel (s : State) : (s.afterReadR).rModel = s.rModel := by unfold State.afterReadR; split <;> rfl
@[simp] theorem State.afterReadR_blockIoFlags (s : State) : (s.afterReadR).blockIoFlags = s.blockIoFlags := by unfold State.afterReadR; split <;> rfl

/-! ### What an update that leaves the memory map leaves of the reads -/

@[simp] theorem State.setReg8_kindAt (s : State) (r : R8) (v : Byte) (x : Word) : (s.setReg8 r v).kindAt x = s.kindAt x := (rfl)
@[simp] theorem State.setReg8_onWriteAt (s : State) (r : R8) (v : Byte) (x : Word) : (s.setReg8 r v).onWriteAt x = s.onWriteAt x := (rfl)
@[simp] theorem State.setReg8_isRam (s : State) (r : R8) (v : Byte) (x : Word) : (s.setReg8 r v).isRam x = s.isRam x := (rfl)
@[simp] theorem State.setReg8_isDevice (s : State) (r : R8) (v : Byte) (x : Word) : (s.setReg8 r v).isDevice x = s.isDevice x := (rfl)
@[simp] theorem State.setReg8_cell (s : State) (r : R8) (v : Byte) (x : Word) : (s.setReg8 r v).cell x = s.cell x := (rfl)
@[simp] theorem State.setReg8_readByte (s : State) (r : R8) (v : Byte) (x : Word) : (s.setReg8 r v).readByte x = s.readByte x := (rfl)
@[simp] theorem State.setA_kindAt (s : State) (v : Byte) (x : Word) : (s.setA v).kindAt x = s.kindAt x := (rfl)
@[simp] theorem State.setA_onWriteAt (s : State) (v : Byte) (x : Word) : (s.setA v).onWriteAt x = s.onWriteAt x := (rfl)
@[simp] theorem State.setA_isRam (s : State) (v : Byte) (x : Word) : (s.setA v).isRam x = s.isRam x := (rfl)
@[simp] theorem State.setA_isDevice (s : State) (v : Byte) (x : Word) : (s.setA v).isDevice x = s.isDevice x := (rfl)
@[simp] theorem State.setA_cell (s : State) (v : Byte) (x : Word) : (s.setA v).cell x = s.cell x := (rfl)
@[simp] theorem State.setA_readByte (s : State) (v : Byte) (x : Word) : (s.setA v).readByte x = s.readByte x := (rfl)
@[simp] theorem State.setB_kindAt (s : State) (v : Byte) (x : Word) : (s.setB v).kindAt x = s.kindAt x := (rfl)
@[simp] theorem State.setB_onWriteAt (s : State) (v : Byte) (x : Word) : (s.setB v).onWriteAt x = s.onWriteAt x := (rfl)
@[simp] theorem State.setB_isRam (s : State) (v : Byte) (x : Word) : (s.setB v).isRam x = s.isRam x := (rfl)
@[simp] theorem State.setB_isDevice (s : State) (v : Byte) (x : Word) : (s.setB v).isDevice x = s.isDevice x := (rfl)
@[simp] theorem State.setB_cell (s : State) (v : Byte) (x : Word) : (s.setB v).cell x = s.cell x := (rfl)
@[simp] theorem State.setB_readByte (s : State) (v : Byte) (x : Word) : (s.setB v).readByte x = s.readByte x := (rfl)
@[simp] theorem State.setBC_kindAt (s : State) (v : Word) (x : Word) : (s.setBC v).kindAt x = s.kindAt x := (rfl)
@[simp] theorem State.setBC_onWriteAt (s : State) (v : Word) (x : Word) : (s.setBC v).onWriteAt x = s.onWriteAt x := (rfl)
@[simp] theorem State.setBC_isRam (s : State) (v : Word) (x : Word) : (s.setBC v).isRam x = s.isRam x := (rfl)
@[simp] theorem State.setBC_isDevice (s : State) (v : Word) (x : Word) : (s.setBC v).isDevice x = s.isDevice x := (rfl)
@[simp] theorem State.setBC_cell (s : State) (v : Word) (x : Word) : (s.setBC v).cell x = s.cell x := (rfl)
@[simp] theorem State.setBC_readByte (s : State) (v : Word) (x : Word) : (s.setBC v).readByte x = s.readByte x := (rfl)
@[simp] theorem State.setDE_kindAt (s : State) (v : Word) (x : Word) : (s.setDE v).kindAt x = s.kindAt x := (rfl)
@[simp] theorem State.setDE_onWriteAt (s : State) (v : Word) (x : Word) : (s.setDE v).onWriteAt x = s.onWriteAt x := (rfl)
@[simp] theorem State.setDE_isRam (s : State) (v : Word) (x : Word) : (s.setDE v).isRam x = s.isRam x := (rfl)
@[simp] theorem State.setDE_isDevice (s : State) (v : Word) (x : Word) : (s.setDE v).isDevice x = s.isDevice x := (rfl)
@[simp] theorem State.setDE_cell (s : State) (v : Word) (x : Word) : (s.setDE v).cell x = s.cell x := (rfl)
@[simp] theorem State.setDE_readByte (s : State) (v : Word) (x : Word) : (s.setDE v).readByte x = s.readByte x := (rfl)
@[simp] theorem State.setHL_kindAt (s : State) (v : Word) (x : Word) : (s.setHL v).kindAt x = s.kindAt x := (rfl)
@[simp] theorem State.setHL_onWriteAt (s : State) (v : Word) (x : Word) : (s.setHL v).onWriteAt x = s.onWriteAt x := (rfl)
@[simp] theorem State.setHL_isRam (s : State) (v : Word) (x : Word) : (s.setHL v).isRam x = s.isRam x := (rfl)
@[simp] theorem State.setHL_isDevice (s : State) (v : Word) (x : Word) : (s.setHL v).isDevice x = s.isDevice x := (rfl)
@[simp] theorem State.setHL_cell (s : State) (v : Word) (x : Word) : (s.setHL v).cell x = s.cell x := (rfl)
@[simp] theorem State.setHL_readByte (s : State) (v : Word) (x : Word) : (s.setHL v).readByte x = s.readByte x := (rfl)
@[simp] theorem State.setAF_kindAt (s : State) (v : Word) (x : Word) : (s.setAF v).kindAt x = s.kindAt x := (rfl)
@[simp] theorem State.setAF_onWriteAt (s : State) (v : Word) (x : Word) : (s.setAF v).onWriteAt x = s.onWriteAt x := (rfl)
@[simp] theorem State.setAF_isRam (s : State) (v : Word) (x : Word) : (s.setAF v).isRam x = s.isRam x := (rfl)
@[simp] theorem State.setAF_isDevice (s : State) (v : Word) (x : Word) : (s.setAF v).isDevice x = s.isDevice x := (rfl)
@[simp] theorem State.setAF_cell (s : State) (v : Word) (x : Word) : (s.setAF v).cell x = s.cell x := (rfl)
@[simp] theorem State.setAF_readByte (s : State) (v : Word) (x : Word) : (s.setAF v).readByte x = s.readByte x := (rfl)
@[simp] theorem State.setSP_kindAt (s : State) (v : Word) (x : Word) : (s.setSP v).kindAt x = s.kindAt x := (rfl)
@[simp] theorem State.setSP_onWriteAt (s : State) (v : Word) (x : Word) : (s.setSP v).onWriteAt x = s.onWriteAt x := (rfl)
@[simp] theorem State.setSP_isRam (s : State) (v : Word) (x : Word) : (s.setSP v).isRam x = s.isRam x := (rfl)
@[simp] theorem State.setSP_isDevice (s : State) (v : Word) (x : Word) : (s.setSP v).isDevice x = s.isDevice x := (rfl)
@[simp] theorem State.setSP_cell (s : State) (v : Word) (x : Word) : (s.setSP v).cell x = s.cell x := (rfl)
@[simp] theorem State.setSP_readByte (s : State) (v : Word) (x : Word) : (s.setSP v).readByte x = s.readByte x := (rfl)
@[simp] theorem State.setIX_kindAt (s : State) (v : Word) (x : Word) : (s.setIX v).kindAt x = s.kindAt x := (rfl)
@[simp] theorem State.setIX_onWriteAt (s : State) (v : Word) (x : Word) : (s.setIX v).onWriteAt x = s.onWriteAt x := (rfl)
@[simp] theorem State.setIX_isRam (s : State) (v : Word) (x : Word) : (s.setIX v).isRam x = s.isRam x := (rfl)
@[simp] theorem State.setIX_isDevice (s : State) (v : Word) (x : Word) : (s.setIX v).isDevice x = s.isDevice x := (rfl)
@[simp] theorem State.setIX_cell (s : State) (v : Word) (x : Word) : (s.setIX v).cell x = s.cell x := (rfl)
@[simp] theorem State.setIX_readByte (s : State) (v : Word) (x : Word) : (s.setIX v).readByte x = s.readByte x := (rfl)
@[simp] theorem State.setIY_kindAt (s : State) (v : Word) (x : Word) : (s.setIY v).kindAt x = s.kindAt x := (rfl)
@[simp] theorem State.setIY_onWriteAt (s : State) (v : Word) (x : Word) : (s.setIY v).onWriteAt x = s.onWriteAt x := (rfl)
@[simp] theorem State.setIY_isRam (s : State) (v : Word) (x : Word) : (s.setIY v).isRam x = s.isRam x := (rfl)
@[simp] theorem State.setIY_isDevice (s : State) (v : Word) (x : Word) : (s.setIY v).isDevice x = s.isDevice x := (rfl)
@[simp] theorem State.setIY_cell (s : State) (v : Word) (x : Word) : (s.setIY v).cell x = s.cell x := (rfl)
@[simp] theorem State.setIY_readByte (s : State) (v : Word) (x : Word) : (s.setIY v).readByte x = s.readByte x := (rfl)
@[simp] theorem State.setI_kindAt (s : State) (v : Byte) (x : Word) : (s.setI v).kindAt x = s.kindAt x := (rfl)
@[simp] theorem State.setI_onWriteAt (s : State) (v : Byte) (x : Word) : (s.setI v).onWriteAt x = s.onWriteAt x := (rfl)
@[simp] theorem State.setI_isRam (s : State) (v : Byte) (x : Word) : (s.setI v).isRam x = s.isRam x := (rfl)
@[simp] theorem State.setI_isDevice (s : State) (v : Byte) (x : Word) : (s.setI v).isDevice x = s.isDevice x := (rfl)
@[simp] theorem State.setI_cell (s : State) (v : Byte) (x : Word) : (s.setI v).cell x = s.cell x := (rfl)
@[simp] theorem State.setI_readByte (s : State) (v : Byte) (x : Word) : (s.setI v).readByte x = s.readByte x := (rfl)
@[simp] theorem State.setR_kindAt (s : State) (v : Byte) (x : Word) : (s.setR v).kindAt x = s.kindAt x := (rfl)
@[simp] theorem State.setR_onWriteAt (s : State) (v : Byte) (x : Word) : (s.setR v).onWriteAt x = s.onWriteAt x := (rfl)
@[simp] theorem State.setR_isRam (s : State) (v : Byte) (x : Word) : (s.setR v).isRam x = s.isRam x := (rfl)
@[simp] theorem State.setR_isDevice (s : State) (v : Byte) (x : Word) : (s.setR v).isDevice x = s.isDevice x := (rfl)
@[simp] theorem State.setR_cell (s : State) (v : Byte) (x : Word) : (s.setR v).cell x = s.cell x := (rfl)
@[simp] theorem State.setR_readByte (s : State) (v : Byte) (x : Word) : (s.setR v).readByte x = s.readByte x := (rfl)
@[simp] theorem State.setIff_kindAt (s : State) (one two : Bool) (x : Word) : (s.setIff one two).kindAt x = s.kindAt x := (rfl)
@[simp] theorem State.setIff_onWriteAt (s : State) (one two : Bool) (x : Word) : (s.setIff one two).onWriteAt x = s.onWriteAt x := (rfl)
@[simp] theorem State.setIff_isRam (s : State) (one two : Bool) (x : Word) : (s.setIff one two).isRam x = s.isRam x := (rfl)
@[simp] theorem State.setIff_isDevice (s : State) (one two : Bool) (x : Word) : (s.setIff one two).isDevice x = s.isDevice x := (rfl)
@[simp] theorem State.setIff_cell (s : State) (one two : Bool) (x : Word) : (s.setIff one two).cell x = s.cell x := (rfl)
@[simp] theorem State.setIff_readByte (s : State) (one two : Bool) (x : Word) : (s.setIff one two).readByte x = s.readByte x := (rfl)
@[simp] theorem State.setIM_kindAt (s : State) (m : IntMode) (x : Word) : (s.setIM m).kindAt x = s.kindAt x := (rfl)
@[simp] theorem State.setIM_onWriteAt (s : State) (m : IntMode) (x : Word) : (s.setIM m).onWriteAt x = s.onWriteAt x := (rfl)
@[simp] theorem State.setIM_isRam (s : State) (m : IntMode) (x : Word) : (s.setIM m).isRam x = s.isRam x := (rfl)
@[simp] theorem State.setIM_isDevice (s : State) (m : IntMode) (x : Word) : (s.setIM m).isDevice x = s.isDevice x := (rfl)
@[simp] theorem State.setIM_cell (s : State) (m : IntMode) (x : Word) : (s.setIM m).cell x = s.cell x := (rfl)
@[simp] theorem State.setIM_readByte (s : State) (m : IntMode) (x : Word) : (s.setIM m).readByte x = s.readByte x := (rfl)
@[simp] theorem State.setHalted_kindAt (s : State) (v : Bool) (x : Word) : (s.setHalted v).kindAt x = s.kindAt x := (rfl)
@[simp] theorem State.setHalted_onWriteAt (s : State) (v : Bool) (x : Word) : (s.setHalted v).onWriteAt x = s.onWriteAt x := (rfl)
@[simp] theorem State.setHalted_isRam (s : State) (v : Bool) (x : Word) : (s.setHalted v).isRam x = s.isRam x := (rfl)
@[simp] theorem State.setHalted_isDevice (s : State) (v : Bool) (x : Word) : (s.setHalted v).isDevice x = s.isDevice x := (rfl)
@[simp] theorem State.setHalted_cell (s : State) (v : Bool) (x : Word) : (s.setHalted v).cell x = s.cell x := (rfl)
@[simp] theorem State.setHalted_readByte (s : State) (v : Bool) (x : Word) : (s.setHalted v).readByte x = s.readByte x := (rfl)
@[simp] theorem State.setEiDelay_kindAt (s : State) (v : Bool) (x : Word) : (s.setEiDelay v).kindAt x = s.kindAt x := (rfl)
@[simp] theorem State.setEiDelay_onWriteAt (s : State) (v : Bool) (x : Word) : (s.setEiDelay v).onWriteAt x = s.onWriteAt x := (rfl)
@[simp] theorem State.setEiDelay_isRam (s : State) (v : Bool) (x : Word) : (s.setEiDelay v).isRam x = s.isRam x := (rfl)
@[simp] theorem State.setEiDelay_isDevice (s : State) (v : Bool) (x : Word) : (s.setEiDelay v).isDevice x = s.isDevice x := (rfl)
@[simp] theorem State.setEiDelay_cell (s : State) (v : Bool) (x : Word) : (s.setEiDelay v).cell x = s.cell x := (rfl)
@[simp] theorem State.setEiDelay_readByte (s : State) (v : Bool) (x : Word) : (s.setEiDelay v).readByte x = s.readByte x := (rfl)
@[simp] theorem State.setFlags_kindAt (s : State) (fl : Flags) (x : Word) : (s.setFlags fl).kindAt x = s.kindAt x := (rfl)
@[simp] theorem State.setFlags_onWriteAt (s : State) (fl : Flags) (x : Word) : (s.setFlags fl).onWriteAt x = s.onWriteAt x := (rfl)
@[simp] theorem State.setFlags_isRam (s : State) (fl : Flags) (x : Word) : (s.setFlags fl).isRam x = s.isRam x := (rfl)
@[simp] theorem State.setFlags_isDevice (s : State) (fl : Flags) (x : Word) : (s.setFlags fl).isDevice x = s.isDevice x := (rfl)
@[simp] theorem State.setFlags_cell (s : State) (fl : Flags) (x : Word) : (s.setFlags fl).cell x = s.cell x := (rfl)
@[simp] theorem State.setFlags_readByte (s : State) (fl : Flags) (x : Word) : (s.setFlags fl).readByte x = s.readByte x := (rfl)
@[simp] theorem State.drew_kindAt (s : State) (n : Nat) (x : Word) : (s.drew n).kindAt x = s.kindAt x := (rfl)
@[simp] theorem State.drew_onWriteAt (s : State) (n : Nat) (x : Word) : (s.drew n).onWriteAt x = s.onWriteAt x := (rfl)
@[simp] theorem State.drew_isRam (s : State) (n : Nat) (x : Word) : (s.drew n).isRam x = s.isRam x := (rfl)
@[simp] theorem State.drew_isDevice (s : State) (n : Nat) (x : Word) : (s.drew n).isDevice x = s.isDevice x := (rfl)
@[simp] theorem State.drew_cell (s : State) (n : Nat) (x : Word) : (s.drew n).cell x = s.cell x := (rfl)
@[simp] theorem State.drew_readByte (s : State) (n : Nat) (x : Word) : (s.drew n).readByte x = s.readByte x := (rfl)
@[simp] theorem State.jump_kindAt (s : State) (a : Word) (x : Word) : (s.jump a).kindAt x = s.kindAt x := (rfl)
@[simp] theorem State.jump_onWriteAt (s : State) (a : Word) (x : Word) : (s.jump a).onWriteAt x = s.onWriteAt x := (rfl)
@[simp] theorem State.jump_isRam (s : State) (a : Word) (x : Word) : (s.jump a).isRam x = s.isRam x := (rfl)
@[simp] theorem State.jump_isDevice (s : State) (a : Word) (x : Word) : (s.jump a).isDevice x = s.isDevice x := (rfl)
@[simp] theorem State.jump_cell (s : State) (a : Word) (x : Word) : (s.jump a).cell x = s.cell x := (rfl)
@[simp] theorem State.jump_readByte (s : State) (a : Word) (x : Word) : (s.jump a).readByte x = s.readByte x := (rfl)
@[simp] theorem State.advance_kindAt (s : State) (n : Word) (x : Word) : (s.advance n).kindAt x = s.kindAt x := (rfl)
@[simp] theorem State.advance_onWriteAt (s : State) (n : Word) (x : Word) : (s.advance n).onWriteAt x = s.onWriteAt x := (rfl)
@[simp] theorem State.advance_isRam (s : State) (n : Word) (x : Word) : (s.advance n).isRam x = s.isRam x := (rfl)
@[simp] theorem State.advance_isDevice (s : State) (n : Word) (x : Word) : (s.advance n).isDevice x = s.isDevice x := (rfl)
@[simp] theorem State.advance_cell (s : State) (n : Word) (x : Word) : (s.advance n).cell x = s.cell x := (rfl)
@[simp] theorem State.advance_readByte (s : State) (n : Word) (x : Word) : (s.advance n).readByte x = s.readByte x := (rfl)
@[simp] theorem State.portWrite_kindAt (s : State) (port : Word) (v : Byte) (x : Word) : (s.portWrite port v).kindAt x = s.kindAt x := (rfl)
@[simp] theorem State.portWrite_onWriteAt (s : State) (port : Word) (v : Byte) (x : Word) : (s.portWrite port v).onWriteAt x = s.onWriteAt x := (rfl)
@[simp] theorem State.portWrite_isRam (s : State) (port : Word) (v : Byte) (x : Word) : (s.portWrite port v).isRam x = s.isRam x := (rfl)
@[simp] theorem State.portWrite_isDevice (s : State) (port : Word) (v : Byte) (x : Word) : (s.portWrite port v).isDevice x = s.isDevice x := (rfl)
@[simp] theorem State.portWrite_cell (s : State) (port : Word) (v : Byte) (x : Word) : (s.portWrite port v).cell x = s.cell x := (rfl)
@[simp] theorem State.afterPortRead_kindAt (s : State) (port : Word) (x : Word) : (s.afterPortRead port).kindAt x = s.kindAt x := (rfl)
@[simp] theorem State.afterPortRead_onWriteAt (s : State) (port : Word) (x : Word) : (s.afterPortRead port).onWriteAt x = s.onWriteAt x := (rfl)
@[simp] theorem State.afterPortRead_isRam (s : State) (port : Word) (x : Word) : (s.afterPortRead port).isRam x = s.isRam x := (rfl)
@[simp] theorem State.afterPortRead_isDevice (s : State) (port : Word) (x : Word) : (s.afterPortRead port).isDevice x = s.isDevice x := (rfl)
@[simp] theorem State.afterPortRead_cell (s : State) (port : Word) (x : Word) : (s.afterPortRead port).cell x = s.cell x := (rfl)
@[simp] theorem State.note_kindAt (s : State) (e : IoEvent) (x : Word) : (s.note e).kindAt x = s.kindAt x := (rfl)
@[simp] theorem State.note_onWriteAt (s : State) (e : IoEvent) (x : Word) : (s.note e).onWriteAt x = s.onWriteAt x := (rfl)
@[simp] theorem State.note_isRam (s : State) (e : IoEvent) (x : Word) : (s.note e).isRam x = s.isRam x := (rfl)
@[simp] theorem State.note_isDevice (s : State) (e : IoEvent) (x : Word) : (s.note e).isDevice x = s.isDevice x := (rfl)
@[simp] theorem State.note_cell (s : State) (e : IoEvent) (x : Word) : (s.note e).cell x = s.cell x := (rfl)
@[simp] theorem State.sample_kindAt (s : State) (x : Word) : (s.sample).kindAt x = s.kindAt x := (rfl)
@[simp] theorem State.sample_onWriteAt (s : State) (x : Word) : (s.sample).onWriteAt x = s.onWriteAt x := (rfl)
@[simp] theorem State.sample_isRam (s : State) (x : Word) : (s.sample).isRam x = s.isRam x := (rfl)
@[simp] theorem State.sample_isDevice (s : State) (x : Word) : (s.sample).isDevice x = s.isDevice x := (rfl)
@[simp] theorem State.sample_cell (s : State) (x : Word) : (s.sample).cell x = s.cell x := (rfl)
@[simp] theorem State.sample_readByte (s : State) (x : Word) : (s.sample).readByte x = s.readByte x := (rfl)
@[simp] theorem State.afterRead_kindAt (s : State) (a : Word) (x : Word) : (s.afterRead a).kindAt x = s.kindAt x := by unfold State.afterRead; split <;> rfl
@[simp] theorem State.afterRead_onWriteAt (s : State) (a : Word) (x : Word) : (s.afterRead a).onWriteAt x = s.onWriteAt x := by unfold State.afterRead; split <;> rfl
@[simp] theorem State.afterRead_isRam (s : State) (a : Word) (x : Word) : (s.afterRead a).isRam x = s.isRam x := by unfold State.afterRead; split <;> rfl
@[simp] theorem State.afterRead_isDevice (s : State) (a : Word) (x : Word) : (s.afterRead a).isDevice x = s.isDevice x := by unfold State.afterRead; split <;> rfl
@[simp] theorem State.afterRead_cell (s : State) (a : Word) (x : Word) : (s.afterRead a).cell x = s.cell x := by unfold State.afterRead; split <;> rfl
@[simp] theorem State.handWrite_kindAt (s : State) (a : Word) (v : Byte) (x : Word) : (s.handWrite a v).kindAt x = s.kindAt x := by unfold State.handWrite; split <;> rfl
@[simp] theorem State.handWrite_onWriteAt (s : State) (a : Word) (v : Byte) (x : Word) : (s.handWrite a v).onWriteAt x = s.onWriteAt x := by unfold State.handWrite; split <;> rfl
@[simp] theorem State.handWrite_isRam (s : State) (a : Word) (v : Byte) (x : Word) : (s.handWrite a v).isRam x = s.isRam x := by unfold State.handWrite; split <;> rfl
@[simp] theorem State.handWrite_isDevice (s : State) (a : Word) (v : Byte) (x : Word) : (s.handWrite a v).isDevice x = s.isDevice x := by unfold State.handWrite; split <;> rfl
@[simp] theorem State.handWrite_cell (s : State) (a : Word) (v : Byte) (x : Word) : (s.handWrite a v).cell x = s.cell x := by unfold State.handWrite; split <;> rfl
@[simp] theorem State.keepWrite_kindAt (s : State) (a : Word) (v : Byte) (x : Word) : (s.keepWrite a v).kindAt x = s.kindAt x := by unfold State.keepWrite; split <;> rfl
@[simp] theorem State.keepWrite_onWriteAt (s : State) (a : Word) (v : Byte) (x : Word) : (s.keepWrite a v).onWriteAt x = s.onWriteAt x := by unfold State.keepWrite; split <;> rfl
@[simp] theorem State.keepWrite_isRam (s : State) (a : Word) (v : Byte) (x : Word) : (s.keepWrite a v).isRam x = s.isRam x := by unfold State.keepWrite; split <;> rfl
@[simp] theorem State.keepWrite_isDevice (s : State) (a : Word) (v : Byte) (x : Word) : (s.keepWrite a v).isDevice x = s.isDevice x := by unfold State.keepWrite; split <;> rfl
@[simp] theorem State.countFetches_kindAt (s : State) (n : Byte) (x : Word) : (s.countFetches n).kindAt x = s.kindAt x := by unfold State.countFetches; split <;> rfl
@[simp] theorem State.countFetches_onWriteAt (s : State) (n : Byte) (x : Word) : (s.countFetches n).onWriteAt x = s.onWriteAt x := by unfold State.countFetches; split <;> rfl
@[simp] theorem State.countFetches_isRam (s : State) (n : Byte) (x : Word) : (s.countFetches n).isRam x = s.isRam x := by unfold State.countFetches; split <;> rfl
@[simp] theorem State.countFetches_isDevice (s : State) (n : Byte) (x : Word) : (s.countFetches n).isDevice x = s.isDevice x := by unfold State.countFetches; split <;> rfl
@[simp] theorem State.countFetches_cell (s : State) (n : Byte) (x : Word) : (s.countFetches n).cell x = s.cell x := by unfold State.countFetches; split <;> rfl
@[simp] theorem State.countFetches_readByte (s : State) (n : Byte) (x : Word) : (s.countFetches n).readByte x = s.readByte x := by unfold State.countFetches; split <;> rfl
@[simp] theorem State.afterReadR_kindAt (s : State) (x : Word) : (s.afterReadR).kindAt x = s.kindAt x := by unfold State.afterReadR; split <;> rfl
@[simp] theorem State.afterReadR_onWriteAt (s : State) (x : Word) : (s.afterReadR).onWriteAt x = s.onWriteAt x := by unfold State.afterReadR; split <;> rfl
@[simp] theorem State.afterReadR_isRam (s : State) (x : Word) : (s.afterReadR).isRam x = s.isRam x := by unfold State.afterReadR; split <;> rfl
@[simp] theorem State.afterReadR_isDevice (s : State) (x : Word) : (s.afterReadR).isDevice x = s.isDevice x := by unfold State.afterReadR; split <;> rfl
@[simp] theorem State.afterReadR_cell (s : State) (x : Word) : (s.afterReadR).cell x = s.cell x := by unfold State.afterReadR; split <;> rfl
@[simp] theorem State.afterReadR_readByte (s : State) (x : Word) : (s.afterReadR).readByte x = s.readByte x := by unfold State.afterReadR; split <;> rfl

/-! ### `s.writeByte a v` -/

@[simp] theorem State.writeByte_main (s : State) (a : Word) (v : Byte) : (s.writeByte a v).main = s.main := by simp [State.writeByte]
@[simp] theorem State.writeByte_alt (s : State) (a : Word) (v : Byte) : (s.writeByte a v).alt = s.alt := by simp [State.writeByte]
@[simp] theorem State.writeByte_ix (s : State) (a : Word) (v : Byte) : (s.writeByte a v).ix = s.ix := by simp [State.writeByte]
@[simp] theorem State.writeByte_iy (s : State) (a : Word) (v : Byte) : (s.writeByte a v).iy = s.iy := by simp [State.writeByte]
@[simp] theorem State.writeByte_sp (s : State) (a : Word) (v : Byte) : (s.writeByte a v).sp = s.sp := by simp [State.writeByte]
@[simp] theorem State.writeByte_pc (s : State) (a : Word) (v : Byte) : (s.writeByte a v).pc = s.pc := by simp [State.writeByte]
@[simp] theorem State.writeByte_i (s : State) (a : Word) (v : Byte) : (s.writeByte a v).i = s.i := by simp [State.writeByte]
@[simp] theorem State.writeByte_r (s : State) (a : Word) (v : Byte) : (s.writeByte a v).r = s.r := by simp [State.writeByte]
@[simp] theorem State.writeByte_iff1 (s : State) (a : Word) (v : Byte) : (s.writeByte a v).iff1 = s.iff1 := by simp [State.writeByte]
@[simp] theorem State.writeByte_iff2 (s : State) (a : Word) (v : Byte) : (s.writeByte a v).iff2 = s.iff2 := by simp [State.writeByte]
@[simp] theorem State.writeByte_im (s : State) (a : Word) (v : Byte) : (s.writeByte a v).im = s.im := by simp [State.writeByte]
@[simp] theorem State.writeByte_halted (s : State) (a : Word) (v : Byte) : (s.writeByte a v).halted = s.halted := by simp [State.writeByte]
@[simp] theorem State.writeByte_eiDelay (s : State) (a : Word) (v : Byte) : (s.writeByte a v).eiDelay = s.eiDelay := by simp [State.writeByte]
@[simp] theorem State.writeByte_nmiPending (s : State) (a : Word) (v : Byte) : (s.writeByte a v).nmiPending = s.nmiPending := by simp [State.writeByte]
@[simp] theorem State.writeByte_mem (s : State) (a : Word) (v : Byte) : (s.writeByte a v).mem = if (s.onWriteAt a).kept then Memory.write s.mem a.toNat v else s.mem := by simp [State.writeByte]
@[simp] theorem State.writeByte_memMap (s : State) (a : Word) (v : Byte) : (s.writeByte a v).memMap = s.memMap := by simp [State.writeByte]
@[simp] theorem State.writeByte_pins (s : State) (a : Word) (v : Byte) : (s.writeByte a v).pins = s.pins := by simp [State.writeByte]
@[simp] theorem State.writeByte_portIn (s : State) (a : Word) (v : Byte) : (s.writeByte a v).portIn = s.portIn := by simp [State.writeByte]
@[simp] theorem State.writeByte_ioTrace (s : State) (a : Word) (v : Byte) : (s.writeByte a v).ioTrace = if (s.onWriteAt a).handed then .memWrite a v :: s.ioTrace else s.ioTrace := by simp [State.writeByte]
@[simp] theorem State.writeByte_rModel (s : State) (a : Word) (v : Byte) : (s.writeByte a v).rModel = s.rModel := by simp [State.writeByte]
@[simp] theorem State.writeByte_blockIoFlags (s : State) (a : Word) (v : Byte) : (s.writeByte a v).blockIoFlags = s.blockIoFlags := by simp [State.writeByte]
@[simp] theorem State.writeByte_draws (s : State) (a : Word) (v : Byte) : (s.writeByte a v).draws = s.draws := by simp [State.writeByte]

@[simp] theorem State.writeByte_kindAt (s : State) (a : Word) (v : Byte) (x : Word) : (s.writeByte a v).kindAt x = s.kindAt x := by simp [State.writeByte]
@[simp] theorem State.writeByte_onWriteAt (s : State) (a : Word) (v : Byte) (x : Word) : (s.writeByte a v).onWriteAt x = s.onWriteAt x := by simp [State.writeByte]
@[simp] theorem State.writeByte_isRam (s : State) (a : Word) (v : Byte) (x : Word) : (s.writeByte a v).isRam x = s.isRam x := by simp [State.writeByte]
@[simp] theorem State.writeByte_isDevice (s : State) (a : Word) (v : Byte) (x : Word) : (s.writeByte a v).isDevice x = s.isDevice x := by simp [State.writeByte]

/-! ### `s.rewriteByte a v` -/

@[simp] theorem State.rewriteByte_main (s : State) (a : Word) (v : Byte) : (s.rewriteByte a v).main = s.main := by simp [State.rewriteByte]
@[simp] theorem State.rewriteByte_alt (s : State) (a : Word) (v : Byte) : (s.rewriteByte a v).alt = s.alt := by simp [State.rewriteByte]
@[simp] theorem State.rewriteByte_ix (s : State) (a : Word) (v : Byte) : (s.rewriteByte a v).ix = s.ix := by simp [State.rewriteByte]
@[simp] theorem State.rewriteByte_iy (s : State) (a : Word) (v : Byte) : (s.rewriteByte a v).iy = s.iy := by simp [State.rewriteByte]
@[simp] theorem State.rewriteByte_sp (s : State) (a : Word) (v : Byte) : (s.rewriteByte a v).sp = s.sp := by simp [State.rewriteByte]
@[simp] theorem State.rewriteByte_pc (s : State) (a : Word) (v : Byte) : (s.rewriteByte a v).pc = s.pc := by simp [State.rewriteByte]
@[simp] theorem State.rewriteByte_i (s : State) (a : Word) (v : Byte) : (s.rewriteByte a v).i = s.i := by simp [State.rewriteByte]
@[simp] theorem State.rewriteByte_r (s : State) (a : Word) (v : Byte) : (s.rewriteByte a v).r = s.r := by simp [State.rewriteByte]
@[simp] theorem State.rewriteByte_iff1 (s : State) (a : Word) (v : Byte) : (s.rewriteByte a v).iff1 = s.iff1 := by simp [State.rewriteByte]
@[simp] theorem State.rewriteByte_iff2 (s : State) (a : Word) (v : Byte) : (s.rewriteByte a v).iff2 = s.iff2 := by simp [State.rewriteByte]
@[simp] theorem State.rewriteByte_im (s : State) (a : Word) (v : Byte) : (s.rewriteByte a v).im = s.im := by simp [State.rewriteByte]
@[simp] theorem State.rewriteByte_halted (s : State) (a : Word) (v : Byte) : (s.rewriteByte a v).halted = s.halted := by simp [State.rewriteByte]
@[simp] theorem State.rewriteByte_eiDelay (s : State) (a : Word) (v : Byte) : (s.rewriteByte a v).eiDelay = s.eiDelay := by simp [State.rewriteByte]
@[simp] theorem State.rewriteByte_nmiPending (s : State) (a : Word) (v : Byte) : (s.rewriteByte a v).nmiPending = s.nmiPending := by simp [State.rewriteByte]
@[simp] theorem State.rewriteByte_memMap (s : State) (a : Word) (v : Byte) : (s.rewriteByte a v).memMap = s.memMap := by simp [State.rewriteByte]
@[simp] theorem State.rewriteByte_pins (s : State) (a : Word) (v : Byte) : (s.rewriteByte a v).pins = s.pins := by simp [State.rewriteByte]
@[simp] theorem State.rewriteByte_portIn (s : State) (a : Word) (v : Byte) : (s.rewriteByte a v).portIn = s.portIn := by simp [State.rewriteByte]
@[simp] theorem State.rewriteByte_rModel (s : State) (a : Word) (v : Byte) : (s.rewriteByte a v).rModel = s.rModel := by simp [State.rewriteByte]
@[simp] theorem State.rewriteByte_blockIoFlags (s : State) (a : Word) (v : Byte) : (s.rewriteByte a v).blockIoFlags = s.blockIoFlags := by simp [State.rewriteByte]
@[simp] theorem State.rewriteByte_draws (s : State) (a : Word) (v : Byte) : (s.rewriteByte a v).draws = s.draws := by simp [State.rewriteByte]

@[simp] theorem State.rewriteByte_kindAt (s : State) (a : Word) (v : Byte) (x : Word) : (s.rewriteByte a v).kindAt x = s.kindAt x := by simp [State.rewriteByte]
@[simp] theorem State.rewriteByte_onWriteAt (s : State) (a : Word) (v : Byte) (x : Word) : (s.rewriteByte a v).onWriteAt x = s.onWriteAt x := by simp [State.rewriteByte]
@[simp] theorem State.rewriteByte_isRam (s : State) (a : Word) (v : Byte) (x : Word) : (s.rewriteByte a v).isRam x = s.isRam x := by simp [State.rewriteByte]
@[simp] theorem State.rewriteByte_isDevice (s : State) (a : Word) (v : Byte) (x : Word) : (s.rewriteByte a v).isDevice x = s.isDevice x := by simp [State.rewriteByte]

/-! ### `s.afterReadWord a` -/

@[simp] theorem State.afterReadWord_main (s : State) (a : Word) : (s.afterReadWord a).main = s.main := by simp [State.afterReadWord]
@[simp] theorem State.afterReadWord_alt (s : State) (a : Word) : (s.afterReadWord a).alt = s.alt := by simp [State.afterReadWord]
@[simp] theorem State.afterReadWord_ix (s : State) (a : Word) : (s.afterReadWord a).ix = s.ix := by simp [State.afterReadWord]
@[simp] theorem State.afterReadWord_iy (s : State) (a : Word) : (s.afterReadWord a).iy = s.iy := by simp [State.afterReadWord]
@[simp] theorem State.afterReadWord_sp (s : State) (a : Word) : (s.afterReadWord a).sp = s.sp := by simp [State.afterReadWord]
@[simp] theorem State.afterReadWord_pc (s : State) (a : Word) : (s.afterReadWord a).pc = s.pc := by simp [State.afterReadWord]
@[simp] theorem State.afterReadWord_i (s : State) (a : Word) : (s.afterReadWord a).i = s.i := by simp [State.afterReadWord]
@[simp] theorem State.afterReadWord_r (s : State) (a : Word) : (s.afterReadWord a).r = s.r := by simp [State.afterReadWord]
@[simp] theorem State.afterReadWord_iff1 (s : State) (a : Word) : (s.afterReadWord a).iff1 = s.iff1 := by simp [State.afterReadWord]
@[simp] theorem State.afterReadWord_iff2 (s : State) (a : Word) : (s.afterReadWord a).iff2 = s.iff2 := by simp [State.afterReadWord]
@[simp] theorem State.afterReadWord_im (s : State) (a : Word) : (s.afterReadWord a).im = s.im := by simp [State.afterReadWord]
@[simp] theorem State.afterReadWord_halted (s : State) (a : Word) : (s.afterReadWord a).halted = s.halted := by simp [State.afterReadWord]
@[simp] theorem State.afterReadWord_eiDelay (s : State) (a : Word) : (s.afterReadWord a).eiDelay = s.eiDelay := by simp [State.afterReadWord]
@[simp] theorem State.afterReadWord_nmiPending (s : State) (a : Word) : (s.afterReadWord a).nmiPending = s.nmiPending := by simp [State.afterReadWord]
@[simp] theorem State.afterReadWord_mem (s : State) (a : Word) : (s.afterReadWord a).mem = s.mem := by simp [State.afterReadWord]
@[simp] theorem State.afterReadWord_memMap (s : State) (a : Word) : (s.afterReadWord a).memMap = s.memMap := by simp [State.afterReadWord]
@[simp] theorem State.afterReadWord_pins (s : State) (a : Word) : (s.afterReadWord a).pins = s.pins := by simp [State.afterReadWord]
@[simp] theorem State.afterReadWord_portIn (s : State) (a : Word) : (s.afterReadWord a).portIn = s.portIn := by simp [State.afterReadWord]
@[simp] theorem State.afterReadWord_rModel (s : State) (a : Word) : (s.afterReadWord a).rModel = s.rModel := by simp [State.afterReadWord]
@[simp] theorem State.afterReadWord_blockIoFlags (s : State) (a : Word) : (s.afterReadWord a).blockIoFlags = s.blockIoFlags := by simp [State.afterReadWord]
@[simp] theorem State.afterReadWord_draws (s : State) (a : Word) : (s.afterReadWord a).draws = s.draws := by simp [State.afterReadWord]

@[simp] theorem State.afterReadWord_kindAt (s : State) (a : Word) (x : Word) : (s.afterReadWord a).kindAt x = s.kindAt x := by simp [State.afterReadWord]
@[simp] theorem State.afterReadWord_onWriteAt (s : State) (a : Word) (x : Word) : (s.afterReadWord a).onWriteAt x = s.onWriteAt x := by simp [State.afterReadWord]
@[simp] theorem State.afterReadWord_isRam (s : State) (a : Word) (x : Word) : (s.afterReadWord a).isRam x = s.isRam x := by simp [State.afterReadWord]
@[simp] theorem State.afterReadWord_isDevice (s : State) (a : Word) (x : Word) : (s.afterReadWord a).isDevice x = s.isDevice x := by simp [State.afterReadWord]
@[simp] theorem State.afterReadWord_cell (s : State) (a : Word) (x : Word) : (s.afterReadWord a).cell x = s.cell x := by simp [State.afterReadWord]

/-! ### `s.afterPop` -/

@[simp] theorem State.afterPop_main (s : State) : (s.afterPop).main = s.main := by simp [State.afterPop]
@[simp] theorem State.afterPop_alt (s : State) : (s.afterPop).alt = s.alt := by simp [State.afterPop]
@[simp] theorem State.afterPop_ix (s : State) : (s.afterPop).ix = s.ix := by simp [State.afterPop]
@[simp] theorem State.afterPop_iy (s : State) : (s.afterPop).iy = s.iy := by simp [State.afterPop]
@[simp] theorem State.afterPop_sp (s : State) : (s.afterPop).sp = s.sp + 2 := by simp [State.afterPop]
@[simp] theorem State.afterPop_pc (s : State) : (s.afterPop).pc = s.pc := by simp [State.afterPop]
@[simp] theorem State.afterPop_i (s : State) : (s.afterPop).i = s.i := by simp [State.afterPop]
@[simp] theorem State.afterPop_r (s : State) : (s.afterPop).r = s.r := by simp [State.afterPop]
@[simp] theorem State.afterPop_iff1 (s : State) : (s.afterPop).iff1 = s.iff1 := by simp [State.afterPop]
@[simp] theorem State.afterPop_iff2 (s : State) : (s.afterPop).iff2 = s.iff2 := by simp [State.afterPop]
@[simp] theorem State.afterPop_im (s : State) : (s.afterPop).im = s.im := by simp [State.afterPop]
@[simp] theorem State.afterPop_halted (s : State) : (s.afterPop).halted = s.halted := by simp [State.afterPop]
@[simp] theorem State.afterPop_eiDelay (s : State) : (s.afterPop).eiDelay = s.eiDelay := by simp [State.afterPop]
@[simp] theorem State.afterPop_nmiPending (s : State) : (s.afterPop).nmiPending = s.nmiPending := by simp [State.afterPop]
@[simp] theorem State.afterPop_mem (s : State) : (s.afterPop).mem = s.mem := by simp [State.afterPop]
@[simp] theorem State.afterPop_memMap (s : State) : (s.afterPop).memMap = s.memMap := by simp [State.afterPop]
@[simp] theorem State.afterPop_pins (s : State) : (s.afterPop).pins = s.pins := by simp [State.afterPop]
@[simp] theorem State.afterPop_portIn (s : State) : (s.afterPop).portIn = s.portIn := by simp [State.afterPop]
@[simp] theorem State.afterPop_rModel (s : State) : (s.afterPop).rModel = s.rModel := by simp [State.afterPop]
@[simp] theorem State.afterPop_blockIoFlags (s : State) : (s.afterPop).blockIoFlags = s.blockIoFlags := by simp [State.afterPop]
@[simp] theorem State.afterPop_draws (s : State) : (s.afterPop).draws = s.draws := by simp [State.afterPop]

@[simp] theorem State.afterPop_kindAt (s : State) (x : Word) : (s.afterPop).kindAt x = s.kindAt x := by simp [State.afterPop]
@[simp] theorem State.afterPop_onWriteAt (s : State) (x : Word) : (s.afterPop).onWriteAt x = s.onWriteAt x := by simp [State.afterPop]
@[simp] theorem State.afterPop_isRam (s : State) (x : Word) : (s.afterPop).isRam x = s.isRam x := by simp [State.afterPop]
@[simp] theorem State.afterPop_isDevice (s : State) (x : Word) : (s.afterPop).isDevice x = s.isDevice x := by simp [State.afterPop]
@[simp] theorem State.afterPop_cell (s : State) (x : Word) : (s.afterPop).cell x = s.cell x := by simp [State.afterPop]

/-! ### `s.writeWord a w` -/

@[simp] theorem State.writeWord_main (s : State) (a w : Word) : (s.writeWord a w).main = s.main := by simp [State.writeWord]
@[simp] theorem State.writeWord_alt (s : State) (a w : Word) : (s.writeWord a w).alt = s.alt := by simp [State.writeWord]
@[simp] theorem State.writeWord_ix (s : State) (a w : Word) : (s.writeWord a w).ix = s.ix := by simp [State.writeWord]
@[simp] theorem State.writeWord_iy (s : State) (a w : Word) : (s.writeWord a w).iy = s.iy := by simp [State.writeWord]
@[simp] theorem State.writeWord_sp (s : State) (a w : Word) : (s.writeWord a w).sp = s.sp := by simp [State.writeWord]
@[simp] theorem State.writeWord_pc (s : State) (a w : Word) : (s.writeWord a w).pc = s.pc := by simp [State.writeWord]
@[simp] theorem State.writeWord_i (s : State) (a w : Word) : (s.writeWord a w).i = s.i := by simp [State.writeWord]
@[simp] theorem State.writeWord_r (s : State) (a w : Word) : (s.writeWord a w).r = s.r := by simp [State.writeWord]
@[simp] theorem State.writeWord_iff1 (s : State) (a w : Word) : (s.writeWord a w).iff1 = s.iff1 := by simp [State.writeWord]
@[simp] theorem State.writeWord_iff2 (s : State) (a w : Word) : (s.writeWord a w).iff2 = s.iff2 := by simp [State.writeWord]
@[simp] theorem State.writeWord_im (s : State) (a w : Word) : (s.writeWord a w).im = s.im := by simp [State.writeWord]
@[simp] theorem State.writeWord_halted (s : State) (a w : Word) : (s.writeWord a w).halted = s.halted := by simp [State.writeWord]
@[simp] theorem State.writeWord_eiDelay (s : State) (a w : Word) : (s.writeWord a w).eiDelay = s.eiDelay := by simp [State.writeWord]
@[simp] theorem State.writeWord_nmiPending (s : State) (a w : Word) : (s.writeWord a w).nmiPending = s.nmiPending := by simp [State.writeWord]
@[simp] theorem State.writeWord_memMap (s : State) (a w : Word) : (s.writeWord a w).memMap = s.memMap := by simp [State.writeWord]
@[simp] theorem State.writeWord_pins (s : State) (a w : Word) : (s.writeWord a w).pins = s.pins := by simp [State.writeWord]
@[simp] theorem State.writeWord_portIn (s : State) (a w : Word) : (s.writeWord a w).portIn = s.portIn := by simp [State.writeWord]
@[simp] theorem State.writeWord_rModel (s : State) (a w : Word) : (s.writeWord a w).rModel = s.rModel := by simp [State.writeWord]
@[simp] theorem State.writeWord_blockIoFlags (s : State) (a w : Word) : (s.writeWord a w).blockIoFlags = s.blockIoFlags := by simp [State.writeWord]
@[simp] theorem State.writeWord_draws (s : State) (a w : Word) : (s.writeWord a w).draws = s.draws := by simp [State.writeWord]

@[simp] theorem State.writeWord_kindAt (s : State) (a w : Word) (x : Word) : (s.writeWord a w).kindAt x = s.kindAt x := by simp [State.writeWord]
@[simp] theorem State.writeWord_onWriteAt (s : State) (a w : Word) (x : Word) : (s.writeWord a w).onWriteAt x = s.onWriteAt x := by simp [State.writeWord]
@[simp] theorem State.writeWord_isRam (s : State) (a w : Word) (x : Word) : (s.writeWord a w).isRam x = s.isRam x := by simp [State.writeWord]
@[simp] theorem State.writeWord_isDevice (s : State) (a w : Word) (x : Word) : (s.writeWord a w).isDevice x = s.isDevice x := by simp [State.writeWord]

/-! ### `s.push16 v` -/

@[simp] theorem State.push16_main (s : State) (v : Word) : (s.push16 v).main = s.main := by simp [State.push16]
@[simp] theorem State.push16_alt (s : State) (v : Word) : (s.push16 v).alt = s.alt := by simp [State.push16]
@[simp] theorem State.push16_ix (s : State) (v : Word) : (s.push16 v).ix = s.ix := by simp [State.push16]
@[simp] theorem State.push16_iy (s : State) (v : Word) : (s.push16 v).iy = s.iy := by simp [State.push16]
@[simp] theorem State.push16_pc (s : State) (v : Word) : (s.push16 v).pc = s.pc := by simp [State.push16]
@[simp] theorem State.push16_i (s : State) (v : Word) : (s.push16 v).i = s.i := by simp [State.push16]
@[simp] theorem State.push16_r (s : State) (v : Word) : (s.push16 v).r = s.r := by simp [State.push16]
@[simp] theorem State.push16_iff1 (s : State) (v : Word) : (s.push16 v).iff1 = s.iff1 := by simp [State.push16]
@[simp] theorem State.push16_iff2 (s : State) (v : Word) : (s.push16 v).iff2 = s.iff2 := by simp [State.push16]
@[simp] theorem State.push16_im (s : State) (v : Word) : (s.push16 v).im = s.im := by simp [State.push16]
@[simp] theorem State.push16_halted (s : State) (v : Word) : (s.push16 v).halted = s.halted := by simp [State.push16]
@[simp] theorem State.push16_eiDelay (s : State) (v : Word) : (s.push16 v).eiDelay = s.eiDelay := by simp [State.push16]
@[simp] theorem State.push16_nmiPending (s : State) (v : Word) : (s.push16 v).nmiPending = s.nmiPending := by simp [State.push16]
@[simp] theorem State.push16_memMap (s : State) (v : Word) : (s.push16 v).memMap = s.memMap := by simp [State.push16]
@[simp] theorem State.push16_pins (s : State) (v : Word) : (s.push16 v).pins = s.pins := by simp [State.push16]
@[simp] theorem State.push16_portIn (s : State) (v : Word) : (s.push16 v).portIn = s.portIn := by simp [State.push16]
@[simp] theorem State.push16_rModel (s : State) (v : Word) : (s.push16 v).rModel = s.rModel := by simp [State.push16]
@[simp] theorem State.push16_blockIoFlags (s : State) (v : Word) : (s.push16 v).blockIoFlags = s.blockIoFlags := by simp [State.push16]
@[simp] theorem State.push16_draws (s : State) (v : Word) : (s.push16 v).draws = s.draws := by simp [State.push16]

@[simp] theorem State.push16_kindAt (s : State) (v : Word) (x : Word) : (s.push16 v).kindAt x = s.kindAt x := by simp [State.push16]
@[simp] theorem State.push16_onWriteAt (s : State) (v : Word) (x : Word) : (s.push16 v).onWriteAt x = s.onWriteAt x := by simp [State.push16]
@[simp] theorem State.push16_isRam (s : State) (v : Word) (x : Word) : (s.push16 v).isRam x = s.isRam x := by simp [State.push16]
@[simp] theorem State.push16_isDevice (s : State) (v : Word) (x : Word) : (s.push16 v).isDevice x = s.isDevice x := by simp [State.push16]

/-! ### `s.enterHandler a` -/

@[simp] theorem State.enterHandler_main (s : State) (a : Word) : (s.enterHandler a).main = s.main := by simp [State.enterHandler]
@[simp] theorem State.enterHandler_alt (s : State) (a : Word) : (s.enterHandler a).alt = s.alt := by simp [State.enterHandler]
@[simp] theorem State.enterHandler_ix (s : State) (a : Word) : (s.enterHandler a).ix = s.ix := by simp [State.enterHandler]
@[simp] theorem State.enterHandler_iy (s : State) (a : Word) : (s.enterHandler a).iy = s.iy := by simp [State.enterHandler]
@[simp] theorem State.enterHandler_pc (s : State) (a : Word) : (s.enterHandler a).pc = a := by simp [State.enterHandler]
@[simp] theorem State.enterHandler_i (s : State) (a : Word) : (s.enterHandler a).i = s.i := by simp [State.enterHandler]
@[simp] theorem State.enterHandler_r (s : State) (a : Word) : (s.enterHandler a).r = s.r := by simp [State.enterHandler]
@[simp] theorem State.enterHandler_iff1 (s : State) (a : Word) : (s.enterHandler a).iff1 = s.iff1 := by simp [State.enterHandler]
@[simp] theorem State.enterHandler_iff2 (s : State) (a : Word) : (s.enterHandler a).iff2 = s.iff2 := by simp [State.enterHandler]
@[simp] theorem State.enterHandler_im (s : State) (a : Word) : (s.enterHandler a).im = s.im := by simp [State.enterHandler]
@[simp] theorem State.enterHandler_halted (s : State) (a : Word) : (s.enterHandler a).halted = s.halted := by simp [State.enterHandler]
@[simp] theorem State.enterHandler_eiDelay (s : State) (a : Word) : (s.enterHandler a).eiDelay = s.eiDelay := by simp [State.enterHandler]
@[simp] theorem State.enterHandler_nmiPending (s : State) (a : Word) : (s.enterHandler a).nmiPending = s.nmiPending := by simp [State.enterHandler]
@[simp] theorem State.enterHandler_memMap (s : State) (a : Word) : (s.enterHandler a).memMap = s.memMap := by simp [State.enterHandler]
@[simp] theorem State.enterHandler_pins (s : State) (a : Word) : (s.enterHandler a).pins = s.pins := by simp [State.enterHandler]
@[simp] theorem State.enterHandler_portIn (s : State) (a : Word) : (s.enterHandler a).portIn = s.portIn := by simp [State.enterHandler]
@[simp] theorem State.enterHandler_rModel (s : State) (a : Word) : (s.enterHandler a).rModel = s.rModel := by simp [State.enterHandler]
@[simp] theorem State.enterHandler_blockIoFlags (s : State) (a : Word) : (s.enterHandler a).blockIoFlags = s.blockIoFlags := by simp [State.enterHandler]
@[simp] theorem State.enterHandler_draws (s : State) (a : Word) : (s.enterHandler a).draws = s.draws := by simp [State.enterHandler]

@[simp] theorem State.enterHandler_kindAt (s : State) (a : Word) (x : Word) : (s.enterHandler a).kindAt x = s.kindAt x := by simp [State.enterHandler]
@[simp] theorem State.enterHandler_onWriteAt (s : State) (a : Word) (x : Word) : (s.enterHandler a).onWriteAt x = s.onWriteAt x := by simp [State.enterHandler]
@[simp] theorem State.enterHandler_isRam (s : State) (a : Word) (x : Word) : (s.enterHandler a).isRam x = s.isRam x := by simp [State.enterHandler]
@[simp] theorem State.enterHandler_isDevice (s : State) (a : Word) (x : Word) : (s.enterHandler a).isDevice x = s.isDevice x := by simp [State.enterHandler]

/-! ### `s.call ret a` -/

@[simp] theorem State.call_main (s : State) (ret a : Word) : (s.call ret a).main = s.main := by simp [State.call]
@[simp] theorem State.call_alt (s : State) (ret a : Word) : (s.call ret a).alt = s.alt := by simp [State.call]
@[simp] theorem State.call_ix (s : State) (ret a : Word) : (s.call ret a).ix = s.ix := by simp [State.call]
@[simp] theorem State.call_iy (s : State) (ret a : Word) : (s.call ret a).iy = s.iy := by simp [State.call]
@[simp] theorem State.call_pc (s : State) (ret a : Word) : (s.call ret a).pc = a := by simp [State.call]
@[simp] theorem State.call_i (s : State) (ret a : Word) : (s.call ret a).i = s.i := by simp [State.call]
@[simp] theorem State.call_r (s : State) (ret a : Word) : (s.call ret a).r = s.r := by simp [State.call]
@[simp] theorem State.call_iff1 (s : State) (ret a : Word) : (s.call ret a).iff1 = s.iff1 := by simp [State.call]
@[simp] theorem State.call_iff2 (s : State) (ret a : Word) : (s.call ret a).iff2 = s.iff2 := by simp [State.call]
@[simp] theorem State.call_im (s : State) (ret a : Word) : (s.call ret a).im = s.im := by simp [State.call]
@[simp] theorem State.call_halted (s : State) (ret a : Word) : (s.call ret a).halted = s.halted := by simp [State.call]
@[simp] theorem State.call_eiDelay (s : State) (ret a : Word) : (s.call ret a).eiDelay = s.eiDelay := by simp [State.call]
@[simp] theorem State.call_nmiPending (s : State) (ret a : Word) : (s.call ret a).nmiPending = s.nmiPending := by simp [State.call]
@[simp] theorem State.call_memMap (s : State) (ret a : Word) : (s.call ret a).memMap = s.memMap := by simp [State.call]
@[simp] theorem State.call_pins (s : State) (ret a : Word) : (s.call ret a).pins = s.pins := by simp [State.call]
@[simp] theorem State.call_portIn (s : State) (ret a : Word) : (s.call ret a).portIn = s.portIn := by simp [State.call]
@[simp] theorem State.call_rModel (s : State) (ret a : Word) : (s.call ret a).rModel = s.rModel := by simp [State.call]
@[simp] theorem State.call_blockIoFlags (s : State) (ret a : Word) : (s.call ret a).blockIoFlags = s.blockIoFlags := by simp [State.call]
@[simp] theorem State.call_draws (s : State) (ret a : Word) : (s.call ret a).draws = s.draws := by simp [State.call]

@[simp] theorem State.call_kindAt (s : State) (ret a : Word) (x : Word) : (s.call ret a).kindAt x = s.kindAt x := by simp [State.call]
@[simp] theorem State.call_onWriteAt (s : State) (ret a : Word) (x : Word) : (s.call ret a).onWriteAt x = s.onWriteAt x := by simp [State.call]
@[simp] theorem State.call_isRam (s : State) (ret a : Word) (x : Word) : (s.call ret a).isRam x = s.isRam x := by simp [State.call]
@[simp] theorem State.call_isDevice (s : State) (ret a : Word) (x : Word) : (s.call ret a).isDevice x = s.isDevice x := by simp [State.call]

/-! ### `s.returnFrom` -/

@[simp] theorem State.returnFrom_main (s : State) : (s.returnFrom).main = s.main := by simp [State.returnFrom]
@[simp] theorem State.returnFrom_alt (s : State) : (s.returnFrom).alt = s.alt := by simp [State.returnFrom]
@[simp] theorem State.returnFrom_ix (s : State) : (s.returnFrom).ix = s.ix := by simp [State.returnFrom]
@[simp] theorem State.returnFrom_iy (s : State) : (s.returnFrom).iy = s.iy := by simp [State.returnFrom]
@[simp] theorem State.returnFrom_sp (s : State) : (s.returnFrom).sp = s.sp + 2 := by simp [State.returnFrom]
@[simp] theorem State.returnFrom_pc (s : State) : (s.returnFrom).pc = s.popped := by simp [State.returnFrom]
@[simp] theorem State.returnFrom_i (s : State) : (s.returnFrom).i = s.i := by simp [State.returnFrom]
@[simp] theorem State.returnFrom_r (s : State) : (s.returnFrom).r = s.r := by simp [State.returnFrom]
@[simp] theorem State.returnFrom_iff1 (s : State) : (s.returnFrom).iff1 = s.iff1 := by simp [State.returnFrom]
@[simp] theorem State.returnFrom_iff2 (s : State) : (s.returnFrom).iff2 = s.iff2 := by simp [State.returnFrom]
@[simp] theorem State.returnFrom_im (s : State) : (s.returnFrom).im = s.im := by simp [State.returnFrom]
@[simp] theorem State.returnFrom_halted (s : State) : (s.returnFrom).halted = s.halted := by simp [State.returnFrom]
@[simp] theorem State.returnFrom_eiDelay (s : State) : (s.returnFrom).eiDelay = s.eiDelay := by simp [State.returnFrom]
@[simp] theorem State.returnFrom_nmiPending (s : State) : (s.returnFrom).nmiPending = s.nmiPending := by simp [State.returnFrom]
@[simp] theorem State.returnFrom_mem (s : State) : (s.returnFrom).mem = s.mem := by simp [State.returnFrom]
@[simp] theorem State.returnFrom_memMap (s : State) : (s.returnFrom).memMap = s.memMap := by simp [State.returnFrom]
@[simp] theorem State.returnFrom_pins (s : State) : (s.returnFrom).pins = s.pins := by simp [State.returnFrom]
@[simp] theorem State.returnFrom_portIn (s : State) : (s.returnFrom).portIn = s.portIn := by simp [State.returnFrom]
@[simp] theorem State.returnFrom_rModel (s : State) : (s.returnFrom).rModel = s.rModel := by simp [State.returnFrom]
@[simp] theorem State.returnFrom_blockIoFlags (s : State) : (s.returnFrom).blockIoFlags = s.blockIoFlags := by simp [State.returnFrom]
@[simp] theorem State.returnFrom_draws (s : State) : (s.returnFrom).draws = s.draws := by simp [State.returnFrom]

@[simp] theorem State.returnFrom_kindAt (s : State) (x : Word) : (s.returnFrom).kindAt x = s.kindAt x := by simp [State.returnFrom]
@[simp] theorem State.returnFrom_onWriteAt (s : State) (x : Word) : (s.returnFrom).onWriteAt x = s.onWriteAt x := by simp [State.returnFrom]
@[simp] theorem State.returnFrom_isRam (s : State) (x : Word) : (s.returnFrom).isRam x = s.isRam x := by simp [State.returnFrom]
@[simp] theorem State.returnFrom_isDevice (s : State) (x : Word) : (s.returnFrom).isDevice x = s.isDevice x := by simp [State.returnFrom]
@[simp] theorem State.returnFrom_cell (s : State) (x : Word) : (s.returnFrom).cell x = s.cell x := by simp [State.returnFrom]

/-! ### Register banks -/

@[simp] theorem Bank.set_get_same (k : Bank) (r : R8) (v : Byte) : (k.set r v).get r = v := by cases r <;> rfl

theorem Bank.set_get_other (k : Bank) {r q : R8} (v : Byte) (h : q ≠ r) : (k.set r v).get q = k.get q := by
  cases r <;> cases q <;> first | rfl | exact absurd rfl h

@[simp] theorem Bank.set_f (k : Bank) (r : R8) (v : Byte) : (k.set r v).f = k.f := by cases r <;> rfl

/-! ### Bytes and words -/

theorem wordOf_toNat (h l : Byte) : (wordOf h l).toNat = h.toNat * 256 + l.toNat := by
  show (h ++ l : BitVec (8 + 8)).toNat = _
  rw [BitVec.toNat_append, ← Nat.shiftLeft_add_eq_or_of_lt l.isLt, Nat.shiftLeft_eq]

theorem hiByte_toNat (w : Word) : (hiByte w).toNat = w.toNat / 256 := by
  have := w.isLt
  simp only [hiByte, BitVec.extractLsb'_toNat, Nat.shiftRight_eq_div_pow]; omega

theorem loByte_toNat (w : Word) : (loByte w).toNat = w.toNat % 256 := by
  simp [loByte, BitVec.extractLsb'_toNat]

@[simp] theorem hiByte_wordOf (h l : Byte) : hiByte (wordOf h l) = h := by
  apply BitVec.eq_of_toNat_eq; rw [hiByte_toNat, wordOf_toNat]; have := l.isLt; omega

@[simp] theorem loByte_wordOf (h l : Byte) : loByte (wordOf h l) = l := by
  apply BitVec.eq_of_toNat_eq; rw [loByte_toNat, wordOf_toNat]; have := l.isLt; omega

@[simp] theorem wordOf_hiByte_loByte (w : Word) : wordOf (hiByte w) (loByte w) = w := by
  apply BitVec.eq_of_toNat_eq; rw [wordOf_toNat, hiByte_toNat, loByte_toNat]; omega

/-! ### Pairs written and read back -/

@[simp] theorem State.setBC_bc (s : State) (v : Word) : (s.setBC v).bc = v := by simp [State.bc]
@[simp] theorem State.setDE_de (s : State) (v : Word) : (s.setDE v).de = v := by simp [State.de]
@[simp] theorem State.setHL_hl (s : State) (v : Word) : (s.setHL v).hl = v := by simp [State.hl]
@[simp] theorem State.setAF_af (s : State) (v : Word) : (s.setAF v).af = v := by simp [State.af]

@[simp] theorem State.setPair_pair (s : State) (p : RR) (v : Word) : (s.setPair p v).pair p = v := by
  cases p <;> simp [State.setPair, State.pair]

@[simp] theorem State.setStackPair_stackPair (s : State) (q : QQ) (v : Word) :
    (s.setStackPair q v).stackPair q = v := by
  cases q <;> simp [State.setStackPair, State.stackPair]

end Sys2Proof.Machine
end

