-- ==== Sys2Proof/Laws/Memory.lean ====
section
/-! SUPPORT. The laws of the memory: a read after a write, the canonical form kept, and what each store of the machine
does to every later read (spec/20_memory.md rules R82, R90, R95). -/

namespace Sys2Proof.Machine

/-! ### The cells -/

theorem Memory.read_erase_same (m : List Host.Cell) (a : Nat) :
    Memory.read (Memory.erase m a) a = Config.unlistedByte := by
  induction m with
  | nil => rfl
  | cons cell rest ih =>
    obtain ⟨k, v⟩ := cell
    by_cases h : k = a
    · simpa [Memory.erase, h] using ih
    · have : Memory.erase ((k, v) :: rest) a = (k, v) :: Memory.erase rest a := by simp [Memory.erase, h]
      simpa [this, Memory.read, h] using ih

theorem Memory.read_erase_other (m : List Host.Cell) {a x : Nat} (hx : x ≠ a) :
    Memory.read (Memory.erase m a) x = Memory.read m x := by
  induction m with
  | nil => rfl
  | cons cell rest ih =>
    obtain ⟨k, v⟩ := cell
    by_cases h : k = a
    · have e : Memory.erase ((k, v) :: rest) a = Memory.erase rest a := by simp [Memory.erase, h]
      have : k ≠ x := fun e => hx (e.symm.trans h)
      simpa [e, Memory.read, this] using ih
    · have e : Memory.erase ((k, v) :: rest) a = (k, v) :: Memory.erase rest a := by simp [Memory.erase, h]
      simp [e, Memory.read, ih]

theorem Memory.read_insert_same (m : List Host.Cell) (a : Nat) (v : Byte) (h : ∀ c ∈ m, c.1 ≠ a) :
    Memory.read (Memory.insert a v m) a = v := by
  induction m with
  | nil => simp [Memory.insert, Memory.read]
  | cons cell rest ih =>
    obtain ⟨k, w⟩ := cell
    have hk : k ≠ a := h (k, w) (by simp)
    have := ih (fun c hc => h c (by simp [hc]))
    unfold Memory.insert
    split <;> simp [Memory.read, hk, this]

theorem Memory.read_insert_other (m : List Host.Cell) {a x : Nat} (v : Byte) (hx : x ≠ a) :
    Memory.read (Memory.insert a v m) x = Memory.read m x := by
  induction m with
  | nil => simp [Memory.insert, Memory.read, hx.symm]
  | cons cell rest ih =>
    obtain ⟨k, w⟩ := cell
    unfold Memory.insert
    split <;> simp [Memory.read, hx.symm, ih]

theorem Memory.erase_ne (m : List Host.Cell) (a : Nat) : ∀ c ∈ Memory.erase m a, c.1 ≠ a := by
  intro c hc; simp [Memory.erase] at hc; exact hc.2

/-- A read after a write to the same address gives what was written. -/
@[simp] theorem Memory.read_write_same (m : List Host.Cell) (a : Nat) (v : Byte) :
    Memory.read (Memory.write m a v) a = v := by
  unfold Memory.write
  split
  · simp_all [Memory.read_erase_same]
  · exact Memory.read_insert_same _ _ _ (Memory.erase_ne m a)

/-- A write leaves every other address alone. -/
theorem Memory.read_write_other (m : List Host.Cell) {a x : Nat} (v : Byte) (hx : x ≠ a) :
    Memory.read (Memory.write m a v) x = Memory.read m x := by
  unfold Memory.write
  split
  · exact Memory.read_erase_other m hx
  · rw [Memory.read_insert_other _ v hx, Memory.read_erase_other m hx]

/-! ### The canonical form -/

theorem Memory.wfFrom_mono {m : List Host.Cell} : ∀ {lo hi : Nat}, lo ≤ hi → Memory.wfFrom hi m = true →
    Memory.wfFrom lo m = true := by
  cases m with
  | nil => intros; rfl
  | cons cell rest =>
    obtain ⟨k, v⟩ := cell
    intro lo hi h w
    simp only [Memory.wfFrom, Bool.and_eq_true, decide_eq_true_eq] at w ⊢
    exact ⟨⟨⟨by omega, w.1.1.2⟩, w.1.2⟩, w.2⟩

theorem Memory.wfFrom_erase (a : Nat) : ∀ {m : List Host.Cell} {lo : Nat}, Memory.wfFrom lo m = true →
    Memory.wfFrom lo (Memory.erase m a) = true := by
  intro m
  induction m with
  | nil => intros; rfl
  | cons cell rest ih =>
    obtain ⟨k, v⟩ := cell
    intro lo w
    simp only [Memory.wfFrom, Bool.and_eq_true, decide_eq_true_eq] at w
    by_cases h : k = a
    · have e : Memory.erase ((k, v) :: rest) a = Memory.erase rest a := by simp [Memory.erase, h]
      rw [e]; exact ih (Memory.wfFrom_mono (by omega) w.2)
    · have e : Memory.erase ((k, v) :: rest) a = (k, v) :: Memory.erase rest a := by simp [Memory.erase, h]
      rw [e]; simp only [Memory.wfFrom, Bool.and_eq_true, decide_eq_true_eq]
      exact ⟨w.1, ih w.2⟩

theorem Memory.wfFrom_insert {a : Nat} {v : Byte} (ha : a < 65536) (hv : v ≠ Config.unlistedByte) :
    ∀ {m : List Host.Cell} {lo : Nat}, lo ≤ a → (∀ c ∈ m, c.1 ≠ a) → Memory.wfFrom lo m = true →
    Memory.wfFrom lo (Memory.insert a v m) = true := by
  intro m
  induction m with
  | nil => intro lo hl _ _; simp [Memory.insert, Memory.wfFrom, hl, ha, hv]
  | cons cell rest ih =>
    obtain ⟨k, w⟩ := cell
    intro lo hl hne hw
    have hk : k ≠ a := hne (k, w) (by simp)
    simp only [Memory.wfFrom, Bool.and_eq_true, decide_eq_true_eq] at hw
    unfold Memory.insert
    split
    · rename_i hlt
      simp only [Memory.wfFrom, Bool.and_eq_true, decide_eq_true_eq]
      exact ⟨⟨⟨hl, ha⟩, by simpa using hv⟩, ⟨⟨by omega, hw.1.1.2⟩, hw.1.2⟩, hw.2⟩
    · simp only [Memory.wfFrom, Bool.and_eq_true, decide_eq_true_eq]
      exact ⟨hw.1, ih (by omega) (fun c hc => hne c (by simp [hc])) hw.2⟩

/-- A write to an address of the machine keeps the canonical form. -/
theorem Memory.wf_write {m : List Host.Cell} (a : Word) (v : Byte) (h : Memory.wf m = true) :
    Memory.wf (Memory.write m a.toNat v) = true := by
  unfold Memory.wf Memory.write at *
  split
  · exact Memory.wfFrom_erase _ h
  · rename_i hv
    exact Memory.wfFrom_insert a.isLt hv (Nat.zero_le _) (Memory.erase_ne m _) (Memory.wfFrom_erase _ h)

/-! ### The machine's reads and writes of one byte -/

/-- What a read depends on: the map, the cell where the address is RAM, the accesses seen where it is a device. -/
theorem State.readByte_eq_of {s t : State} {x : Word} (hr : t.memMap = s.memMap)
    (hc : s.kindAt x = .ram → t.cell x = s.cell x) (hd : s.isDevice x = true → t.ioTrace = s.ioTrace) :
    t.readByte x = s.readByte x := by
  have hk : t.kindAt x = s.kindAt x := by simp [State.kindAt, State.regionAt, hr]
  unfold State.readByte
  rw [hk]
  cases h : s.kindAt x with
  | ram => exact hc h
  | rom contents => rfl
  | absent v => rfl
  | device => simp only; rw [hd (by simp [State.isDevice, h])]

theorem State.cell_congr {s t : State} (hm : t.mem = s.mem) (x : Word) : t.cell x = s.cell x := by
  simp [State.cell, hm]

theorem State.readByte_congr {s t : State} (hm : t.mem = s.mem) (hr : t.memMap = s.memMap)
    (hi : t.ioTrace = s.ioTrace) (x : Word) : t.readByte x = s.readByte x :=
  State.readByte_eq_of hr (fun _ => State.cell_congr hm x) (fun _ => hi)

/-- RAM reads give the cell. -/
theorem State.readByte_of_isRam {s : State} {x : Word} (h : s.isRam x = true) : s.readByte x = s.cell x := by
  have hk : s.kindAt x = .ram := by simp [State.isRam] at h; exact h.1
  simp [State.readByte, hk]

theorem State.kept_of_isRam {s : State} {x : Word} (h : s.isRam x = true) : (s.onWriteAt x).kept = true :=
by
  simp [State.isRam] at h; exact h.2

/-- A read that no device sees leaves every other answer as it was (rule R87). -/
theorem State.readByte_afterRead {s : State} (a : Word) {x : Word} (h : s.isDevice x = false) :
    (s.afterRead a).readByte x = s.readByte x :=
  State.readByte_eq_of (by simp) (fun _ => by simp) (fun c => by rw [h] at c; cases c)

/-- A read where there is no device leaves the machine as it was (rule R87). -/
theorem State.afterRead_eq {s : State} {a : Word} (h : s.isDevice a = false) : s.afterRead a = s := by
  simp [State.afterRead, h]

/-- A store in one line: what it leaves of the cells and of what the platform saw. -/
theorem State.writeByte_eq (s : State) (a : Word) (v : Byte) : s.writeByte a v = { s with
    mem := if (s.onWriteAt a).kept then Memory.write s.mem a.toNat v else s.mem
    ioTrace := if (s.onWriteAt a).handed then .memWrite a v :: s.ioTrace else s.ioTrace } := by
  simp only [State.writeByte, State.keepWrite, State.handWrite_onWriteAt]
  unfold State.handWrite
  cases (s.onWriteAt a).handed <;> cases (s.onWriteAt a).kept <;> rfl

/-- Everything a store of one byte does to the cells. -/
theorem State.cell_writeByte (s : State) (a x : Word) (v : Byte) :
    (s.writeByte a v).cell x = if x = a ∧ (s.onWriteAt a).kept = true then v else s.cell x := by
  simp only [State.cell, State.writeByte_mem]
  by_cases hk : (s.onWriteAt a).kept = true
  · by_cases hx : x = a
    · subst hx; simp [hk]
    · have hn : x.toNat ≠ a.toNat := fun e => hx (BitVec.eq_of_toNat_eq e)
      simp [hk, hx, Memory.read_write_other _ v hn]
  · simp [hk]

theorem State.cell_writeByte_other {s : State} {a x : Word} (v : Byte) (h : x ≠ a) :
    (s.writeByte a v).cell x = s.cell x := by simp [State.cell_writeByte, h]

/-- RAM reads back what a store left (rule R90). -/
theorem State.readByte_writeByte_same {s : State} {a : Word} (v : Byte) (h : s.isRam a = true) :
    (s.writeByte a v).readByte a = v := by
  rw [State.readByte_of_isRam (by simpa using h), State.cell_writeByte, if_pos ⟨rfl, State.kept_of_isRam h⟩]

/-- Everything a store of one byte does to the reads that no device answers. -/
theorem State.readByte_writeByte {s : State} (a : Word) {x : Word} (v : Byte) (h : s.isDevice x = false) :
    (s.writeByte a v).readByte x = if x = a ∧ s.isRam a = true then v else s.readByte x := by
  by_cases hx : x = a
  · subst hx
    by_cases hr : s.isRam x = true
    · rw [if_pos ⟨rfl, hr⟩, State.readByte_writeByte_same v hr]
    · rw [if_neg fun c => hr c.2]
      refine State.readByte_eq_of (by simp) (fun hk => ?_) (fun c => by rw [h] at c; cases c)
      rw [State.cell_writeByte, if_neg fun c => hr (by simp [State.isRam, hk, c.2])]
  · rw [if_neg fun c => hx c.1]
    exact State.readByte_eq_of (by simp) (fun _ => State.cell_writeByte_other v hx) (fun c => by rw [h] at c; cases c)

/-- Everything a byte read and written back does to the reads that no device answers (rule R99). -/
theorem State.readByte_rewriteByte {s : State} (a : Word) {x : Word} (v : Byte) (h : s.isDevice x = false) :
    (s.rewriteByte a v).readByte x = if x = a ∧ s.isRam a = true then v else s.readByte x := by
  rw [State.rewriteByte, State.readByte_writeByte a v (by simpa using h), State.readByte_afterRead a h]
  simp only [State.afterRead_isRam]

theorem State.wf_writeByte {s : State} (a : Word) (v : Byte) (h : Memory.wf s.mem = true) :
    Memory.wf (s.writeByte a v).mem = true := by
  rw [State.writeByte_mem]; split
  · exact Memory.wf_write a v h
  · exact h

theorem State.wf_rewriteByte {s : State} (a : Word) (v : Byte) (h : Memory.wf s.mem = true) :
    Memory.wf (s.rewriteByte a v).mem = true := State.wf_writeByte a v (by simpa using h)

/-! ### Words and the stack -/

@[simp] theorem State.push16_sp (s : State) (v : Word) : (s.push16 v).sp = s.sp - 2 := by
  simp [State.push16, BitVec.sub_sub]

/-- `Push16` in one line (rule R95). -/
theorem State.push16_eq (s : State) (v : Word) :
    s.push16 v = ((s.setSP (s.sp - 2)).writeByte (s.sp - 1) (hiByte v)).writeByte (s.sp - 2) (loByte v) := by
  have e : s.sp - 1 - 1 = s.sp - 2 := by simp [BitVec.sub_sub]
  have w : ∀ (u : State) (p a : Word) (b : Byte), (u.writeByte a b).setSP p = (u.setSP p).writeByte a b := by
    intro u p a b; rw [State.writeByte_eq, State.writeByte_eq]; rfl
  simp only [State.push16, State.setSP_sp, State.writeByte_sp, w, e]
  rfl

/-- Everything `Push16` does to the reads that no device answers (rule R95). -/
theorem State.readByte_push16 {s : State} (v : Word) {x : Word} (h : s.isDevice x = false) :
    (s.push16 v).readByte x =
      if x = s.sp - 2 ∧ s.isRam (s.sp - 2) = true then loByte v
      else if x = s.sp - 1 ∧ s.isRam (s.sp - 1) = true then hiByte v else s.readByte x := by
  rw [State.push16_eq, State.readByte_writeByte _ _ (by simpa using h), State.readByte_writeByte _ _ (by simpa using h)]
  simp only [State.writeByte_isRam, State.setSP_isRam, State.setSP_readByte]

/-- The cells `Push16` leaves alone. -/
theorem State.cell_push16_other {s : State} (v : Word) {x : Word} (h1 : x ≠ s.sp - 1) (h2 : x ≠ s.sp - 2) :
    (s.push16 v).cell x = s.cell x := by
  rw [State.push16_eq, State.cell_writeByte_other _ h2, State.cell_writeByte_other _ h1]; rfl

/-- Everything a store of a word does to the reads that no device answers (rule R82). -/
theorem State.readByte_writeWord {s : State} (a w : Word) {x : Word} (h : s.isDevice x = false) :
    (s.writeWord a w).readByte x =
      if x = a + 1 ∧ s.isRam (a + 1) = true then hiByte w
      else if x = a ∧ s.isRam a = true then loByte w else s.readByte x := by
  rw [State.writeWord, State.readByte_writeByte _ _ (by simpa using h), State.readByte_writeByte _ _ h]
  simp only [State.writeByte_isRam]

/-- The cells a store of a word leaves alone. -/
theorem State.cell_writeWord_other {s : State} (a w : Word) {x : Word} (h1 : x ≠ a) (h2 : x ≠ a + 1) :
    (s.writeWord a w).cell x = s.cell x := by
  rw [State.writeWord, State.cell_writeByte_other _ h2, State.cell_writeByte_other _ h1]

theorem State.wf_writeWord {s : State} (a w : Word) (h : Memory.wf s.mem = true) :
    Memory.wf (s.writeWord a w).mem = true := State.wf_writeByte _ _ (State.wf_writeByte _ _ h)

theorem State.wf_push16 {s : State} (v : Word) (h : Memory.wf s.mem = true) :
    Memory.wf (s.push16 v).mem = true := by
  rw [State.push16_eq]; exact State.wf_writeByte _ _ (State.wf_writeByte _ _ h)

theorem State.wf_enterHandler {s : State} (a : Word) (h : Memory.wf s.mem = true) :
    Memory.wf (s.enterHandler a).mem = true := by
  simpa [State.enterHandler] using State.wf_push16 s.pc h

theorem State.wf_enterVector {s : State} (a : Word) (h : Memory.wf s.mem = true) :
    Memory.wf (s.enterVector a).mem = true := by
  simpa [State.enterVector] using State.wf_push16 s.pc h

theorem State.wf_call {s : State} (ret a : Word) (h : Memory.wf s.mem = true) :
    Memory.wf (s.call ret a).mem = true := by
  simpa [State.call] using State.wf_push16 ret h

theorem State.wf_placeBytes : ∀ {bs : List Byte} {s : State} (a : Word), Memory.wf s.mem = true →
    Memory.wf (s.placeBytes a bs).mem = true := by
  intro bs
  induction bs with
  | nil => intro s a h; exact h
  | cons v rest ih => intro s a h; exact ih (a + 1) (Memory.wf_write a v h)

/-! ### Fetching changes nothing but what the platform saw -/

/-- What some reads leave: every field but the accesses seen (rules R87, R89). -/
theorem State.fetchMore_only_ioTrace : ∀ (n : Nat) (got : List Byte) (s : State),
    (State.fetchMore n got s).1 = { s with ioTrace := (State.fetchMore n got s).1.ioTrace }
  | 0, _, _ => rfl
  | n + 1, got, s => by
    have e : ∀ (u : State) (a : Word), u.afterRead a = { u with ioTrace := (u.afterRead a).ioTrace } := by
      intro u a; unfold State.afterRead; split <;> rfl
    unfold State.fetchMore
    simp only
    split
    · exact e _ _
    · exact e _ _
    · have h := State.fetchMore_only_ioTrace n (got ++ [s.readByte (s.pc + BitVec.ofNat 16 got.length)])
        (s.afterRead (s.pc + BitVec.ofNat 16 got.length))
      rw [h, e s]

/-- What the fetch of an instruction leaves. -/
theorem State.afterFetch_eq (s : State) : s.afterFetch = { s with ioTrace := s.afterFetch.ioTrace } :=
  State.fetchMore_only_ioTrace 4 [] s

@[simp] theorem State.afterFetch_main (s : State) : s.afterFetch.main = s.main := by rw [State.afterFetch_eq]
@[simp] theorem State.afterFetch_alt (s : State) : s.afterFetch.alt = s.alt := by rw [State.afterFetch_eq]
@[simp] theorem State.afterFetch_ix (s : State) : s.afterFetch.ix = s.ix := by rw [State.afterFetch_eq]
@[simp] theorem State.afterFetch_iy (s : State) : s.afterFetch.iy = s.iy := by rw [State.afterFetch_eq]
@[simp] theorem State.afterFetch_sp (s : State) : s.afterFetch.sp = s.sp := by rw [State.afterFetch_eq]
@[simp] theorem State.afterFetch_pc (s : State) : s.afterFetch.pc = s.pc := by rw [State.afterFetch_eq]
@[simp] theorem State.afterFetch_i (s : State) : s.afterFetch.i = s.i := by rw [State.afterFetch_eq]
@[simp] theorem State.afterFetch_r (s : State) : s.afterFetch.r = s.r := by rw [State.afterFetch_eq]
@[simp] theorem State.afterFetch_iff1 (s : State) : s.afterFetch.iff1 = s.iff1 := by rw [State.afterFetch_eq]
@[simp] theorem State.afterFetch_iff2 (s : State) : s.afterFetch.iff2 = s.iff2 := by rw [State.afterFetch_eq]
@[simp] theorem State.afterFetch_im (s : State) : s.afterFetch.im = s.im := by rw [State.afterFetch_eq]
@[simp] theorem State.afterFetch_halted (s : State) : s.afterFetch.halted = s.halted := by rw [State.afterFetch_eq]
@[simp] theorem State.afterFetch_eiDelay (s : State) : s.afterFetch.eiDelay = s.eiDelay := by rw [State.afterFetch_eq]
@[simp] theorem State.afterFetch_nmiPending (s : State) : s.afterFetch.nmiPending = s.nmiPending := by rw [State.afterFetch_eq]
@[simp] theorem State.afterFetch_mem (s : State) : s.afterFetch.mem = s.mem := by rw [State.afterFetch_eq]
@[simp] theorem State.afterFetch_memMap (s : State) : s.afterFetch.memMap = s.memMap := by rw [State.afterFetch_eq]
@[simp] theorem State.afterFetch_pins (s : State) : s.afterFetch.pins = s.pins := by rw [State.afterFetch_eq]
@[simp] theorem State.afterFetch_portIn (s : State) : s.afterFetch.portIn = s.portIn := by rw [State.afterFetch_eq]
@[simp] theorem State.afterFetch_rModel (s : State) : s.afterFetch.rModel = s.rModel := by rw [State.afterFetch_eq]
@[simp] theorem State.afterFetch_blockIoFlags (s : State) : s.afterFetch.blockIoFlags = s.blockIoFlags := by rw [State.afterFetch_eq]
@[simp] theorem State.afterFetch_draws (s : State) : s.afterFetch.draws = s.draws := by rw [State.afterFetch_eq]
@[simp] theorem State.beginInstr_main (s : State) (i : Instr) : (s.beginInstr i).main = s.main := by
  simp [State.beginInstr]
@[simp] theorem State.beginInstr_alt (s : State) (i : Instr) : (s.beginInstr i).alt = s.alt := by
  simp [State.beginInstr]
@[simp] theorem State.beginInstr_ix (s : State) (i : Instr) : (s.beginInstr i).ix = s.ix := by
  simp [State.beginInstr]
@[simp] theorem State.beginInstr_iy (s : State) (i : Instr) : (s.beginInstr i).iy = s.iy := by
  simp [State.beginInstr]
@[simp] theorem State.beginInstr_sp (s : State) (i : Instr) : (s.beginInstr i).sp = s.sp := by
  simp [State.beginInstr]
@[simp] theorem State.beginInstr_pc (s : State) (i : Instr) : (s.beginInstr i).pc = s.pc := by
  simp [State.beginInstr]
@[simp] theorem State.beginInstr_i (s : State) (i : Instr) : (s.beginInstr i).i = s.i := by
  simp [State.beginInstr]
@[simp] theorem State.beginInstr_iff1 (s : State) (i : Instr) : (s.beginInstr i).iff1 = s.iff1 := by
  simp [State.beginInstr]
@[simp] theorem State.beginInstr_iff2 (s : State) (i : Instr) : (s.beginInstr i).iff2 = s.iff2 := by
  simp [State.beginInstr]
@[simp] theorem State.beginInstr_im (s : State) (i : Instr) : (s.beginInstr i).im = s.im := by
  simp [State.beginInstr]
@[simp] theorem State.beginInstr_halted (s : State) (i : Instr) : (s.beginInstr i).halted = s.halted := by
  simp [State.beginInstr]
@[simp] theorem State.beginInstr_eiDelay (s : State) (i : Instr) : (s.beginInstr i).eiDelay = false := by
  simp [State.beginInstr]
@[simp] theorem State.beginInstr_nmiPending (s : State) (i : Instr) : (s.beginInstr i).nmiPending = s.nmiPending := by
  simp [State.beginInstr]
@[simp] theorem State.beginInstr_mem (s : State) (i : Instr) : (s.beginInstr i).mem = s.mem := by
  simp [State.beginInstr]
@[simp] theorem State.beginInstr_memMap (s : State) (i : Instr) : (s.beginInstr i).memMap = s.memMap := by
  simp [State.beginInstr]
@[simp] theorem State.beginInstr_pins (s : State) (i : Instr) : (s.beginInstr i).pins = s.pins := by
  simp [State.beginInstr]
@[simp] theorem State.beginInstr_portIn (s : State) (i : Instr) : (s.beginInstr i).portIn = s.portIn := by
  simp [State.beginInstr]
@[simp] theorem State.beginInstr_rModel (s : State) (i : Instr) : (s.beginInstr i).rModel = s.rModel := by
  simp [State.beginInstr]
@[simp] theorem State.beginInstr_blockIoFlags (s : State) (i : Instr) : (s.beginInstr i).blockIoFlags = s.blockIoFlags := by
  simp [State.beginInstr]
@[simp] theorem State.beginInstr_draws (s : State) (i : Instr) : (s.beginInstr i).draws = s.draws := by
  simp [State.beginInstr]
@[simp] theorem State.beginInstr_ioTrace (s : State) (i : Instr) : (s.beginInstr i).ioTrace = s.afterFetch.ioTrace := by
  simp [State.beginInstr]

/-- Under `R_MODEL = draw` what comes before an instruction leaves R. -/
theorem State.beginInstr_r_of_draw {s : State} (i : Instr) (h : s.rModel = .draw) : (s.beginInstr i).r = s.r := by
  simp [State.beginInstr, State.countFetches, h]

/-- The memory after reset has the canonical form. -/
theorem State.wf_reset : Memory.wf State.reset.mem = true := rfl

end Sys2Proof.Machine
end

