-- ==== Sys2Proof/Laws/Flags.lean ====
section
/-! SUPPORT. The laws of F: what is read back from a packed F, and what each flag-setting operation can do. -/

namespace Sys2Proof.Machine

/-! ### F packed and read back (spec/10_state.md rule R37) -/

@[simp] theorem Flags.ofByte_pack (fl : Flags) (x y : Bool) : Flags.ofByte (fl.pack x y) = fl := by
  obtain ⟨s, z, h, pv, n, c⟩ := fl
  revert s z h pv n c x y; decide

@[simp] theorem Flags.pack_bit5 (fl : Flags) (x y : Bool) : (fl.pack x y).getLsbD 5 = x := by
  obtain ⟨s, z, h, pv, n, c⟩ := fl
  revert s z h pv n c x y; decide

@[simp] theorem Flags.pack_bit3 (fl : Flags) (x y : Bool) : (fl.pack x y).getLsbD 3 = y := by
  obtain ⟨s, z, h, pv, n, c⟩ := fl
  revert s z h pv n c x y; decide

@[simp] theorem State.setFlags_flags (s : State) (fl : Flags) : (s.setFlags fl).flags = fl := by
  simp [State.flags]

@[simp] theorem State.setFlags_reg8 (s : State) (fl : Flags) (r : R8) : (s.setFlags fl).reg8 r = s.reg8 r := by
  cases r <;> rfl

/-! ### Flags that an update leaves -/

theorem State.flags_congr {s t : State} (h : t.main.f = s.main.f) : t.flags = s.flags := by simp [State.flags, h]

@[simp] theorem State.setA_flags (s : State) (v : Byte) : (s.setA v).flags = s.flags := rfl
@[simp] theorem State.setB_flags (s : State) (v : Byte) : (s.setB v).flags = s.flags := rfl
@[simp] theorem State.setBC_flags (s : State) (v : Word) : (s.setBC v).flags = s.flags := rfl
@[simp] theorem State.setDE_flags (s : State) (v : Word) : (s.setDE v).flags = s.flags := rfl
@[simp] theorem State.setHL_flags (s : State) (v : Word) : (s.setHL v).flags = s.flags := rfl
@[simp] theorem State.setSP_flags (s : State) (v : Word) : (s.setSP v).flags = s.flags := rfl
@[simp] theorem State.drew_flags (s : State) (n : Nat) : (s.drew n).flags = s.flags := rfl
@[simp] theorem State.jump_flags (s : State) (a : Word) : (s.jump a).flags = s.flags := rfl
@[simp] theorem State.advance_flags (s : State) (n : Word) : (s.advance n).flags = s.flags := rfl
@[simp] theorem State.portWrite_flags (s : State) (p : Word) (v : Byte) : (s.portWrite p v).flags = s.flags := rfl
@[simp] theorem State.afterPortRead_flags (s : State) (p : Word) : (s.afterPortRead p).flags = s.flags := rfl
@[simp] theorem State.setReg8_flags (s : State) (r : R8) (v : Byte) : (s.setReg8 r v).flags = s.flags := by
  cases r <;> rfl
@[simp] theorem State.writeByte_flags (s : State) (a : Word) (v : Byte) : (s.writeByte a v).flags = s.flags :=
  State.flags_congr (by simp)
@[simp] theorem State.rewriteByte_flags (s : State) (a : Word) (v : Byte) : (s.rewriteByte a v).flags = s.flags :=
  State.flags_congr (by simp)
@[simp] theorem State.afterRead_flags (s : State) (a : Word) : (s.afterRead a).flags = s.flags :=
  State.flags_congr (by simp)

/-! ### The shared operations, in one equation each -/

/-- What adding to A leaves (rule R320). -/
theorem State.addToA_spec (s : State) (v : Byte) (cin : Bool) :
    (s.addToA v cin).main.a = (add8 s.main.a v cin).1 ∧ (s.addToA v cin).flags = (add8 s.main.a v cin).2 ∧
      ∀ r, r ≠ .a → (s.addToA v cin).reg8 r = s.reg8 r := by
  refine ⟨rfl, by simp [State.addToA], ?_⟩
  intro r hr; cases r <;> first | rfl | exact absurd rfl hr

/-- What subtracting from A leaves (rule R321). -/
theorem State.subFromA_spec (s : State) (v : Byte) (cin : Bool) :
    (s.subFromA v cin).main.a = (sub8 s.main.a v cin).1 ∧ (s.subFromA v cin).flags = (sub8 s.main.a v cin).2 ∧
      ∀ r, r ≠ .a → (s.subFromA v cin).reg8 r = s.reg8 r := by
  refine ⟨rfl, by simp [State.subFromA], ?_⟩
  intro r hr; cases r <;> first | rfl | exact absurd rfl hr

/-- What comparing with A leaves (rule R321). -/
theorem State.compareA_spec (s : State) (v : Byte) :
    (s.compareA v).flags = (sub8 s.main.a v false).2 ∧ ∀ r, (s.compareA v).reg8 r = s.reg8 r := by
  exact ⟨by simp [State.compareA], fun r => by simp [State.compareA]⟩

/-- What a logical operation on A leaves (rule R322). -/
theorem State.logicToA_spec (s : State) (res : Byte) (h : Bool) :
    (s.logicToA res h).main.a = res ∧ (s.logicToA res h).flags = logicFlags res h ∧
      ∀ r, r ≠ .a → (s.logicToA res h).reg8 r = s.reg8 r := by
  refine ⟨rfl, by simp [State.logicToA], ?_⟩
  intro r hr; cases r <;> first | rfl | exact absurd rfl hr

/-- What an operation on a register in place leaves (rules R323, R421). -/
theorem State.updateReg8_spec (s : State) (r : R8) (p : Byte × Flags) :
    (s.updateReg8 r p).reg8 r = p.1 ∧ (s.updateReg8 r p).flags = p.2 ∧
      ∀ q, q ≠ r → (s.updateReg8 r p).reg8 q = s.reg8 q := by
  refine ⟨?_, by simp [State.updateReg8], fun q hq => ?_⟩
  · rw [State.updateReg8, State.setFlags_reg8]; exact Bank.set_get_same _ _ _
  · rw [State.updateReg8, State.setFlags_reg8]; exact Bank.set_get_other _ _ hq

/-- What an operation on a memory byte in place leaves (rules R323, R421, R99). -/
theorem State.updateByte_spec (s : State) (a : Word) (p : Byte × Flags) :
    (s.updateByte a p).flags = p.2 ∧ (∀ r, (s.updateByte a p).reg8 r = s.reg8 r) ∧
      ∀ x, s.isDevice x = false →
        (s.updateByte a p).readByte x = if x = a ∧ s.isRam a = true then p.1 else s.readByte x := by
  refine ⟨by simp [State.updateByte], fun r => by
    rw [State.updateByte, State.setFlags_reg8]; simp [State.reg8], fun x h => ?_⟩
  simp [State.updateByte, State.readByte_rewriteByte a p.1 h]

/-- What BIT leaves: Z, H, N and C are fixed, S and P/V are draws (rule R480). -/
theorem State.testBit_spec (s : State) (b : BitVec 3) (v : Byte) :
    (s.testBit b v).flags.z = !v.getLsbD b.toNat ∧ (s.testBit b v).flags.h = true ∧
      (s.testBit b v).flags.n = false ∧ (s.testBit b v).flags.c = s.flags.c := by
  simp [State.testBit]

/-- What one iteration of a block load leaves of BC, DE and HL (rules R286, R288). -/
theorem State.loadBlock_spec (s : State) (delta : Word) :
    (s.loadBlock delta).hl = s.hl + delta ∧ (s.loadBlock delta).de = s.de + delta ∧
      (s.loadBlock delta).bc = s.bc - 1 ∧ (s.loadBlock delta).flags =
        { s.flags with h := false, pv := s.bc - 1 != 0, n := false } := by
  simp [State.loadBlock, State.hl, State.de, State.bc]

/-- What one iteration of a block compare leaves of BC and HL (rules R290, R292). -/
theorem State.compareBlock_spec (s : State) (delta : Word) :
    (s.compareBlock delta).hl = s.hl + delta ∧ (s.compareBlock delta).bc = s.bc - 1 ∧
      (s.compareBlock delta).flags.z = (s.main.a - s.readByte s.hl == 0) := by
  simp [State.compareBlock, State.hl, State.bc]

end Sys2Proof.Machine
end

