-- ==== Sys2Proof/Laws/PerInstr.lean ====
section
/-! SUPPORT. What holds of every instruction as syntax, one lemma for each constructor. -/

namespace Sys2Proof.Laws

/-- An instruction takes one to four bytes (spec/30_encoding.md rule R121), so the four bytes a step fetches hold it. -/
def EncodedLength.Statement (i : Instr) : Prop := 1 ≤ (encode i).length ∧ (encode i).length ≤ 4

theorem encodedLength_of {i : Instr} (h : (Nat.ble 1 (encode i).length && Nat.ble (encode i).length 4) = true) :
    EncodedLength.Statement i := by
  rw [Bool.and_eq_true] at h
  exact ⟨Nat.le_of_ble_eq_true h.1, Nat.le_of_ble_eq_true h.2⟩

theorem EncodedLength.ldRR (r : R8) (s : R8) : EncodedLength.Statement (.ldRR r s) := encodedLength_of rfl
theorem EncodedLength.ldRN (r : R8) (n : Byte) : EncodedLength.Statement (.ldRN r n) := encodedLength_of rfl
theorem EncodedLength.ldRAtHl (r : R8) : EncodedLength.Statement (.ldRAtHl r) := encodedLength_of rfl
theorem EncodedLength.ldAtHlR (r : R8) : EncodedLength.Statement (.ldAtHlR r) := encodedLength_of rfl
theorem EncodedLength.ldAtHlN (n : Byte) : EncodedLength.Statement (.ldAtHlN n) := encodedLength_of rfl
theorem EncodedLength.ldRAtIxd (r : R8) (d : Byte) : EncodedLength.Statement (.ldRAtIxd r d) := encodedLength_of rfl
theorem EncodedLength.ldRAtIyd (r : R8) (d : Byte) : EncodedLength.Statement (.ldRAtIyd r d) := encodedLength_of rfl
theorem EncodedLength.ldAtIxdR (d : Byte) (r : R8) : EncodedLength.Statement (.ldAtIxdR d r) := encodedLength_of rfl
theorem EncodedLength.ldAtIydR (d : Byte) (r : R8) : EncodedLength.Statement (.ldAtIydR d r) := encodedLength_of rfl
theorem EncodedLength.ldAtIxdN (d : Byte) (n : Byte) : EncodedLength.Statement (.ldAtIxdN d n) := encodedLength_of rfl
theorem EncodedLength.ldAtIydN (d : Byte) (n : Byte) : EncodedLength.Statement (.ldAtIydN d n) := encodedLength_of rfl
theorem EncodedLength.ldAAtBc : EncodedLength.Statement .ldAAtBc := encodedLength_of rfl
theorem EncodedLength.ldAAtDe : EncodedLength.Statement .ldAAtDe := encodedLength_of rfl
theorem EncodedLength.ldAAtNn (nn : Word) : EncodedLength.Statement (.ldAAtNn nn) := encodedLength_of rfl
theorem EncodedLength.ldAtBcA : EncodedLength.Statement .ldAtBcA := encodedLength_of rfl
theorem EncodedLength.ldAtDeA : EncodedLength.Statement .ldAtDeA := encodedLength_of rfl
theorem EncodedLength.ldAtNnA (nn : Word) : EncodedLength.Statement (.ldAtNnA nn) := encodedLength_of rfl
theorem EncodedLength.ldAI : EncodedLength.Statement .ldAI := encodedLength_of rfl
theorem EncodedLength.ldARefresh : EncodedLength.Statement .ldARefresh := encodedLength_of rfl
theorem EncodedLength.ldIA : EncodedLength.Statement .ldIA := encodedLength_of rfl
theorem EncodedLength.ldRefreshA : EncodedLength.Statement .ldRefreshA := encodedLength_of rfl
theorem EncodedLength.ldPairNn (p : RR) (nn : Word) : EncodedLength.Statement (.ldPairNn p nn) := encodedLength_of rfl
theorem EncodedLength.ldIxNn (nn : Word) : EncodedLength.Statement (.ldIxNn nn) := encodedLength_of rfl
theorem EncodedLength.ldIyNn (nn : Word) : EncodedLength.Statement (.ldIyNn nn) := encodedLength_of rfl
theorem EncodedLength.ldHlAtNn (nn : Word) : EncodedLength.Statement (.ldHlAtNn nn) := encodedLength_of rfl
theorem EncodedLength.ldPairAtNn (p : RR) (nn : Word) : EncodedLength.Statement (.ldPairAtNn p nn) := encodedLength_of rfl
theorem EncodedLength.ldIxAtNn (nn : Word) : EncodedLength.Statement (.ldIxAtNn nn) := encodedLength_of rfl
theorem EncodedLength.ldIyAtNn (nn : Word) : EncodedLength.Statement (.ldIyAtNn nn) := encodedLength_of rfl
theorem EncodedLength.ldAtNnHl (nn : Word) : EncodedLength.Statement (.ldAtNnHl nn) := encodedLength_of rfl
theorem EncodedLength.ldAtNnPair (nn : Word) (p : RR) : EncodedLength.Statement (.ldAtNnPair nn p) := encodedLength_of rfl
theorem EncodedLength.ldAtNnIx (nn : Word) : EncodedLength.Statement (.ldAtNnIx nn) := encodedLength_of rfl
theorem EncodedLength.ldAtNnIy (nn : Word) : EncodedLength.Statement (.ldAtNnIy nn) := encodedLength_of rfl
theorem EncodedLength.ldSpHl : EncodedLength.Statement .ldSpHl := encodedLength_of rfl
theorem EncodedLength.ldSpIx : EncodedLength.Statement .ldSpIx := encodedLength_of rfl
theorem EncodedLength.ldSpIy : EncodedLength.Statement .ldSpIy := encodedLength_of rfl
theorem EncodedLength.pushPair (q : QQ) : EncodedLength.Statement (.pushPair q) := encodedLength_of rfl
theorem EncodedLength.pushIx : EncodedLength.Statement .pushIx := encodedLength_of rfl
theorem EncodedLength.pushIy : EncodedLength.Statement .pushIy := encodedLength_of rfl
theorem EncodedLength.popPair (q : QQ) : EncodedLength.Statement (.popPair q) := encodedLength_of rfl
theorem EncodedLength.popIx : EncodedLength.Statement .popIx := encodedLength_of rfl
theorem EncodedLength.popIy : EncodedLength.Statement .popIy := encodedLength_of rfl
theorem EncodedLength.exDeHl : EncodedLength.Statement .exDeHl := encodedLength_of rfl
theorem EncodedLength.exAf : EncodedLength.Statement .exAf := encodedLength_of rfl
theorem EncodedLength.exx : EncodedLength.Statement .exx := encodedLength_of rfl
theorem EncodedLength.exAtSpHl : EncodedLength.Statement .exAtSpHl := encodedLength_of rfl
theorem EncodedLength.exAtSpIx : EncodedLength.Statement .exAtSpIx := encodedLength_of rfl
theorem EncodedLength.exAtSpIy : EncodedLength.Statement .exAtSpIy := encodedLength_of rfl
theorem EncodedLength.ldi : EncodedLength.Statement .ldi := encodedLength_of rfl
theorem EncodedLength.ldir : EncodedLength.Statement .ldir := encodedLength_of rfl
theorem EncodedLength.ldd : EncodedLength.Statement .ldd := encodedLength_of rfl
theorem EncodedLength.lddr : EncodedLength.Statement .lddr := encodedLength_of rfl
theorem EncodedLength.cpi : EncodedLength.Statement .cpi := encodedLength_of rfl
theorem EncodedLength.cpir : EncodedLength.Statement .cpir := encodedLength_of rfl
theorem EncodedLength.cpd : EncodedLength.Statement .cpd := encodedLength_of rfl
theorem EncodedLength.cpdr : EncodedLength.Statement .cpdr := encodedLength_of rfl
theorem EncodedLength.adcR (r : R8) : EncodedLength.Statement (.adcR r) := encodedLength_of rfl
theorem EncodedLength.adcN (n : Byte) : EncodedLength.Statement (.adcN n) := encodedLength_of rfl
theorem EncodedLength.adcAtHl : EncodedLength.Statement .adcAtHl := encodedLength_of rfl
theorem EncodedLength.adcAtIxd (d : Byte) : EncodedLength.Statement (.adcAtIxd d) := encodedLength_of rfl
theorem EncodedLength.adcAtIyd (d : Byte) : EncodedLength.Statement (.adcAtIyd d) := encodedLength_of rfl
theorem EncodedLength.addR (r : R8) : EncodedLength.Statement (.addR r) := encodedLength_of rfl
theorem EncodedLength.addN (n : Byte) : EncodedLength.Statement (.addN n) := encodedLength_of rfl
theorem EncodedLength.addAtHl : EncodedLength.Statement .addAtHl := encodedLength_of rfl
theorem EncodedLength.addAtIxd (d : Byte) : EncodedLength.Statement (.addAtIxd d) := encodedLength_of rfl
theorem EncodedLength.addAtIyd (d : Byte) : EncodedLength.Statement (.addAtIyd d) := encodedLength_of rfl
theorem EncodedLength.andR (r : R8) : EncodedLength.Statement (.andR r) := encodedLength_of rfl
theorem EncodedLength.andN (n : Byte) : EncodedLength.Statement (.andN n) := encodedLength_of rfl
theorem EncodedLength.andAtHl : EncodedLength.Statement .andAtHl := encodedLength_of rfl
theorem EncodedLength.andAtIxd (d : Byte) : EncodedLength.Statement (.andAtIxd d) := encodedLength_of rfl
theorem EncodedLength.andAtIyd (d : Byte) : EncodedLength.Statement (.andAtIyd d) := encodedLength_of rfl
theorem EncodedLength.cpR (r : R8) : EncodedLength.Statement (.cpR r) := encodedLength_of rfl
theorem EncodedLength.cpN (n : Byte) : EncodedLength.Statement (.cpN n) := encodedLength_of rfl
theorem EncodedLength.cpAtHl : EncodedLength.Statement .cpAtHl := encodedLength_of rfl
theorem EncodedLength.cpAtIxd (d : Byte) : EncodedLength.Statement (.cpAtIxd d) := encodedLength_of rfl
theorem EncodedLength.cpAtIyd (d : Byte) : EncodedLength.Statement (.cpAtIyd d) := encodedLength_of rfl
theorem EncodedLength.orR (r : R8) : EncodedLength.Statement (.orR r) := encodedLength_of rfl
theorem EncodedLength.orN (n : Byte) : EncodedLength.Statement (.orN n) := encodedLength_of rfl
theorem EncodedLength.orAtHl : EncodedLength.Statement .orAtHl := encodedLength_of rfl
theorem EncodedLength.orAtIxd (d : Byte) : EncodedLength.Statement (.orAtIxd d) := encodedLength_of rfl
theorem EncodedLength.orAtIyd (d : Byte) : EncodedLength.Statement (.orAtIyd d) := encodedLength_of rfl
theorem EncodedLength.sbcR (r : R8) : EncodedLength.Statement (.sbcR r) := encodedLength_of rfl
theorem EncodedLength.sbcN (n : Byte) : EncodedLength.Statement (.sbcN n) := encodedLength_of rfl
theorem EncodedLength.sbcAtHl : EncodedLength.Statement .sbcAtHl := encodedLength_of rfl
theorem EncodedLength.sbcAtIxd (d : Byte) : EncodedLength.Statement (.sbcAtIxd d) := encodedLength_of rfl
theorem EncodedLength.sbcAtIyd (d : Byte) : EncodedLength.Statement (.sbcAtIyd d) := encodedLength_of rfl
theorem EncodedLength.subR (r : R8) : EncodedLength.Statement (.subR r) := encodedLength_of rfl
theorem EncodedLength.subN (n : Byte) : EncodedLength.Statement (.subN n) := encodedLength_of rfl
theorem EncodedLength.subAtHl : EncodedLength.Statement .subAtHl := encodedLength_of rfl
theorem EncodedLength.subAtIxd (d : Byte) : EncodedLength.Statement (.subAtIxd d) := encodedLength_of rfl
theorem EncodedLength.subAtIyd (d : Byte) : EncodedLength.Statement (.subAtIyd d) := encodedLength_of rfl
theorem EncodedLength.xorR (r : R8) : EncodedLength.Statement (.xorR r) := encodedLength_of rfl
theorem EncodedLength.xorN (n : Byte) : EncodedLength.Statement (.xorN n) := encodedLength_of rfl
theorem EncodedLength.xorAtHl : EncodedLength.Statement .xorAtHl := encodedLength_of rfl
theorem EncodedLength.xorAtIxd (d : Byte) : EncodedLength.Statement (.xorAtIxd d) := encodedLength_of rfl
theorem EncodedLength.xorAtIyd (d : Byte) : EncodedLength.Statement (.xorAtIyd d) := encodedLength_of rfl
theorem EncodedLength.incR (r : R8) : EncodedLength.Statement (.incR r) := encodedLength_of rfl
theorem EncodedLength.incAtHl : EncodedLength.Statement .incAtHl := encodedLength_of rfl
theorem EncodedLength.incAtIxd (d : Byte) : EncodedLength.Statement (.incAtIxd d) := encodedLength_of rfl
theorem EncodedLength.incAtIyd (d : Byte) : EncodedLength.Statement (.incAtIyd d) := encodedLength_of rfl
theorem EncodedLength.decR (r : R8) : EncodedLength.Statement (.decR r) := encodedLength_of rfl
theorem EncodedLength.decAtHl : EncodedLength.Statement .decAtHl := encodedLength_of rfl
theorem EncodedLength.decAtIxd (d : Byte) : EncodedLength.Statement (.decAtIxd d) := encodedLength_of rfl
theorem EncodedLength.decAtIyd (d : Byte) : EncodedLength.Statement (.decAtIyd d) := encodedLength_of rfl
theorem EncodedLength.daa : EncodedLength.Statement .daa := encodedLength_of rfl
theorem EncodedLength.cpl : EncodedLength.Statement .cpl := encodedLength_of rfl
theorem EncodedLength.neg : EncodedLength.Statement .neg := encodedLength_of rfl
theorem EncodedLength.ccf : EncodedLength.Statement .ccf := encodedLength_of rfl
theorem EncodedLength.scf : EncodedLength.Statement .scf := encodedLength_of rfl
theorem EncodedLength.nop : EncodedLength.Statement .nop := encodedLength_of rfl
theorem EncodedLength.halt : EncodedLength.Statement .halt := encodedLength_of rfl
theorem EncodedLength.di : EncodedLength.Statement .di := encodedLength_of rfl
theorem EncodedLength.ei : EncodedLength.Statement .ei := encodedLength_of rfl
theorem EncodedLength.im0 : EncodedLength.Statement .im0 := encodedLength_of rfl
theorem EncodedLength.im1 : EncodedLength.Statement .im1 := encodedLength_of rfl
theorem EncodedLength.im2 : EncodedLength.Statement .im2 := encodedLength_of rfl
theorem EncodedLength.adcHlPair (p : RR) : EncodedLength.Statement (.adcHlPair p) := encodedLength_of rfl
theorem EncodedLength.addHlPair (p : RR) : EncodedLength.Statement (.addHlPair p) := encodedLength_of rfl
theorem EncodedLength.addIxPair (p : PPX) : EncodedLength.Statement (.addIxPair p) := encodedLength_of rfl
theorem EncodedLength.addIyPair (p : PPY) : EncodedLength.Statement (.addIyPair p) := encodedLength_of rfl
theorem EncodedLength.sbcHlPair (p : RR) : EncodedLength.Statement (.sbcHlPair p) := encodedLength_of rfl
theorem EncodedLength.incPair (p : RR) : EncodedLength.Statement (.incPair p) := encodedLength_of rfl
theorem EncodedLength.incIx : EncodedLength.Statement .incIx := encodedLength_of rfl
theorem EncodedLength.incIy : EncodedLength.Statement .incIy := encodedLength_of rfl
theorem EncodedLength.decPair (p : RR) : EncodedLength.Statement (.decPair p) := encodedLength_of rfl
theorem EncodedLength.decIx : EncodedLength.Statement .decIx := encodedLength_of rfl
theorem EncodedLength.decIy : EncodedLength.Statement .decIy := encodedLength_of rfl
theorem EncodedLength.rlca : EncodedLength.Statement .rlca := encodedLength_of rfl
theorem EncodedLength.rla : EncodedLength.Statement .rla := encodedLength_of rfl
theorem EncodedLength.rrca : EncodedLength.Statement .rrca := encodedLength_of rfl
theorem EncodedLength.rra : EncodedLength.Statement .rra := encodedLength_of rfl
theorem EncodedLength.rlR (r : R8) : EncodedLength.Statement (.rlR r) := encodedLength_of rfl
theorem EncodedLength.rlAtHl : EncodedLength.Statement .rlAtHl := encodedLength_of rfl
theorem EncodedLength.rlAtIxd (d : Byte) : EncodedLength.Statement (.rlAtIxd d) := encodedLength_of rfl
theorem EncodedLength.rlAtIyd (d : Byte) : EncodedLength.Statement (.rlAtIyd d) := encodedLength_of rfl
theorem EncodedLength.rlcR (r : R8) : EncodedLength.Statement (.rlcR r) := encodedLength_of rfl
theorem EncodedLength.rlcAtHl : EncodedLength.Statement .rlcAtHl := encodedLength_of rfl
theorem EncodedLength.rlcAtIxd (d : Byte) : EncodedLength.Statement (.rlcAtIxd d) := encodedLength_of rfl
theorem EncodedLength.rlcAtIyd (d : Byte) : EncodedLength.Statement (.rlcAtIyd d) := encodedLength_of rfl
theorem EncodedLength.rrR (r : R8) : EncodedLength.Statement (.rrR r) := encodedLength_of rfl
theorem EncodedLength.rrAtHl : EncodedLength.Statement .rrAtHl := encodedLength_of rfl
theorem EncodedLength.rrAtIxd (d : Byte) : EncodedLength.Statement (.rrAtIxd d) := encodedLength_of rfl
theorem EncodedLength.rrAtIyd (d : Byte) : EncodedLength.Statement (.rrAtIyd d) := encodedLength_of rfl
theorem EncodedLength.rrcR (r : R8) : EncodedLength.Statement (.rrcR r) := encodedLength_of rfl
theorem EncodedLength.rrcAtHl : EncodedLength.Statement .rrcAtHl := encodedLength_of rfl
theorem EncodedLength.rrcAtIxd (d : Byte) : EncodedLength.Statement (.rrcAtIxd d) := encodedLength_of rfl
theorem EncodedLength.rrcAtIyd (d : Byte) : EncodedLength.Statement (.rrcAtIyd d) := encodedLength_of rfl
theorem EncodedLength.slaR (r : R8) : EncodedLength.Statement (.slaR r) := encodedLength_of rfl
theorem EncodedLength.slaAtHl : EncodedLength.Statement .slaAtHl := encodedLength_of rfl
theorem EncodedLength.slaAtIxd (d : Byte) : EncodedLength.Statement (.slaAtIxd d) := encodedLength_of rfl
theorem EncodedLength.slaAtIyd (d : Byte) : EncodedLength.Statement (.slaAtIyd d) := encodedLength_of rfl
theorem EncodedLength.sraR (r : R8) : EncodedLength.Statement (.sraR r) := encodedLength_of rfl
theorem EncodedLength.sraAtHl : EncodedLength.Statement .sraAtHl := encodedLength_of rfl
theorem EncodedLength.sraAtIxd (d : Byte) : EncodedLength.Statement (.sraAtIxd d) := encodedLength_of rfl
theorem EncodedLength.sraAtIyd (d : Byte) : EncodedLength.Statement (.sraAtIyd d) := encodedLength_of rfl
theorem EncodedLength.srlR (r : R8) : EncodedLength.Statement (.srlR r) := encodedLength_of rfl
theorem EncodedLength.srlAtHl : EncodedLength.Statement .srlAtHl := encodedLength_of rfl
theorem EncodedLength.srlAtIxd (d : Byte) : EncodedLength.Statement (.srlAtIxd d) := encodedLength_of rfl
theorem EncodedLength.srlAtIyd (d : Byte) : EncodedLength.Statement (.srlAtIyd d) := encodedLength_of rfl
theorem EncodedLength.rld : EncodedLength.Statement .rld := encodedLength_of rfl
theorem EncodedLength.rrd : EncodedLength.Statement .rrd := encodedLength_of rfl
theorem EncodedLength.bitR (b : BitVec 3) (r : R8) : EncodedLength.Statement (.bitR b r) := encodedLength_of rfl
theorem EncodedLength.bitAtHl (b : BitVec 3) : EncodedLength.Statement (.bitAtHl b) := encodedLength_of rfl
theorem EncodedLength.bitAtIxd (b : BitVec 3) (d : Byte) : EncodedLength.Statement (.bitAtIxd b d) := encodedLength_of rfl
theorem EncodedLength.bitAtIyd (b : BitVec 3) (d : Byte) : EncodedLength.Statement (.bitAtIyd b d) := encodedLength_of rfl
theorem EncodedLength.resR (b : BitVec 3) (r : R8) : EncodedLength.Statement (.resR b r) := encodedLength_of rfl
theorem EncodedLength.resAtHl (b : BitVec 3) : EncodedLength.Statement (.resAtHl b) := encodedLength_of rfl
theorem EncodedLength.resAtIxd (b : BitVec 3) (d : Byte) : EncodedLength.Statement (.resAtIxd b d) := encodedLength_of rfl
theorem EncodedLength.resAtIyd (b : BitVec 3) (d : Byte) : EncodedLength.Statement (.resAtIyd b d) := encodedLength_of rfl
theorem EncodedLength.setR (b : BitVec 3) (r : R8) : EncodedLength.Statement (.setR b r) := encodedLength_of rfl
theorem EncodedLength.setAtHl (b : BitVec 3) : EncodedLength.Statement (.setAtHl b) := encodedLength_of rfl
theorem EncodedLength.setAtIxd (b : BitVec 3) (d : Byte) : EncodedLength.Statement (.setAtIxd b d) := encodedLength_of rfl
theorem EncodedLength.setAtIyd (b : BitVec 3) (d : Byte) : EncodedLength.Statement (.setAtIyd b d) := encodedLength_of rfl
theorem EncodedLength.jpNn (nn : Word) : EncodedLength.Statement (.jpNn nn) := encodedLength_of rfl
theorem EncodedLength.jpCondNn (cc : Cond) (nn : Word) : EncodedLength.Statement (.jpCondNn cc nn) := encodedLength_of rfl
theorem EncodedLength.jrE (e : Byte) : EncodedLength.Statement (.jrE e) := encodedLength_of rfl
theorem EncodedLength.jrCondE (cc : Cond) (e : Byte) : EncodedLength.Statement (.jrCondE cc e) := encodedLength_of rfl
theorem EncodedLength.jpHl : EncodedLength.Statement .jpHl := encodedLength_of rfl
theorem EncodedLength.jpIx : EncodedLength.Statement .jpIx := encodedLength_of rfl
theorem EncodedLength.jpIy : EncodedLength.Statement .jpIy := encodedLength_of rfl
theorem EncodedLength.djnz (e : Byte) : EncodedLength.Statement (.djnz e) := encodedLength_of rfl
theorem EncodedLength.callNn (nn : Word) : EncodedLength.Statement (.callNn nn) := encodedLength_of rfl
theorem EncodedLength.callCondNn (cc : Cond) (nn : Word) : EncodedLength.Statement (.callCondNn cc nn) := encodedLength_of rfl
theorem EncodedLength.ret : EncodedLength.Statement .ret := encodedLength_of rfl
theorem EncodedLength.retCond (cc : Cond) : EncodedLength.Statement (.retCond cc) := encodedLength_of rfl
theorem EncodedLength.reti : EncodedLength.Statement .reti := encodedLength_of rfl
theorem EncodedLength.retn : EncodedLength.Statement .retn := encodedLength_of rfl
theorem EncodedLength.rst (p : Word) : EncodedLength.Statement (.rst p) := encodedLength_of rfl
theorem EncodedLength.inAN (n : Byte) : EncodedLength.Statement (.inAN n) := encodedLength_of rfl
theorem EncodedLength.inRC (r : R8) : EncodedLength.Statement (.inRC r) := encodedLength_of rfl
theorem EncodedLength.ini : EncodedLength.Statement .ini := encodedLength_of rfl
theorem EncodedLength.inir : EncodedLength.Statement .inir := encodedLength_of rfl
theorem EncodedLength.ind : EncodedLength.Statement .ind := encodedLength_of rfl
theorem EncodedLength.indr : EncodedLength.Statement .indr := encodedLength_of rfl
theorem EncodedLength.outNA (n : Byte) : EncodedLength.Statement (.outNA n) := encodedLength_of rfl
theorem EncodedLength.outCR (r : R8) : EncodedLength.Statement (.outCR r) := encodedLength_of rfl
theorem EncodedLength.outi : EncodedLength.Statement .outi := encodedLength_of rfl
theorem EncodedLength.otir : EncodedLength.Statement .otir := encodedLength_of rfl
theorem EncodedLength.outd : EncodedLength.Statement .outd := encodedLength_of rfl
theorem EncodedLength.otdr : EncodedLength.Statement .otdr := encodedLength_of rfl

end Sys2Proof.Laws
end

