-- ==== Sys2Proof/Laws/Spec.lean ====
section
/-! SUPPORT. One lemma for each shared operation, in the terms of the claims: stores, pushes and pops, the flag
computations, the draws, and what one step can do. -/

namespace Sys2Proof.Machine

/-! ### Addresses next to each other -/

theorem succ_ne_self (a : Word) : a + 1 ≠ a := by bv_omega

theorem sub_two_ne_sub_one (a : Word) : a - 2 ≠ a - 1 := by bv_omega

/-! ### Stores, pushes and pops -/

theorem hiByte_eq_ofNat (w : Word) : hiByte w = BitVec.ofNat 8 (w.toNat / 256) := by
  apply BitVec.eq_of_toNat_eq; rw [hiByte_toNat, BitVec.toNat_ofNat]; omega

theorem loByte_eq_ofNat (w : Word) : loByte w = BitVec.ofNat 8 (w.toNat % 256) := by
  apply BitVec.eq_of_toNat_eq; rw [loByte_toNat, BitVec.toNat_ofNat]; omega

/-- RAM is no device. -/
theorem State.isDevice_of_isRam {s : State} {a : Word} (h : s.isRam a = true) : s.isDevice a = false := by
  simp [State.isRam] at h; simp [State.isDevice, h.1]

/-- What `writeByte` stores. -/
theorem Stored.of_writeByte {s t : State} {a : Word} {v : Byte} (h : t.readByte a = (s.writeByte a v).readByte a) :
    Stored s t a v := fun hr => h.trans (State.readByte_writeByte_same v hr)

/-- What a store leaves that comes after accesses which leave the map. -/
theorem Stored.of_eq {s t u : State} {a : Word} {v : Byte} (hu : u.isRam a = s.isRam a)
    (h : t.readByte a = (u.writeByte a v).readByte a) : Stored s t a v := fun hr =>
  h.trans (State.readByte_writeByte_same v (hu.trans hr))

/-- What a store of a word leaves that comes after accesses which leave the map (rule R82). -/
theorem StoredWord.of_eq {s t u : State} {a w : Word} (hu : ∀ x, u.isRam x = s.isRam x)
    (h : ∀ x, t.readByte x = (u.writeWord a w).readByte x) : StoredWord s t a w := by
  have e := succ_ne_self a
  unfold StoredWord Stored
  rw [h, h, ← hiByte_eq_ofNat, ← loByte_eq_ofNat, ← hu, ← hu]
  refine ⟨fun hr => ?_, fun hr => ?_⟩ <;> rw [State.readByte_writeWord _ _ (State.isDevice_of_isRam hr)]
  · rw [if_neg fun c => e c.1.symm, if_pos ⟨rfl, hr⟩]
  · rw [if_pos ⟨rfl, hr⟩]

/-- What `writeWord` stores (rule R82). -/
theorem StoredWord.of_writeWord {s t : State} {a w : Word} (h : ∀ x, t.readByte x = (s.writeWord a w).readByte x) :
    StoredWord s t a w := StoredWord.of_eq (fun _ => rfl) h

/-- What `push16` stores (rule R95). -/
theorem Pushed.of_push16 {s t : State} {w : Word} (hs : t.sp = s.sp - 2)
    (h : ∀ x, t.readByte x = (s.push16 w).readByte x) : Pushed s t w := by
  have e := sub_two_ne_sub_one s.sp
  unfold Pushed Stored
  rw [h, h, ← hiByte_eq_ofNat, ← loByte_eq_ofNat]
  refine ⟨hs, fun hr => ?_, fun hr => ?_⟩ <;> rw [State.readByte_push16 _ (State.isDevice_of_isRam hr)]
  · rw [if_neg fun c => e c.1.symm, if_pos ⟨rfl, hr⟩]
  · rw [if_pos ⟨rfl, hr⟩]

/-- What `readWord` reads (rule R82). -/
theorem HoldsWord.of_readWord (s : State) (a : Word) : HoldsWord s a (s.readWord a) := by
  unfold HoldsWord State.readWord; rw [wordOf_toNat]; omega

/-! ### What the accesses of an instruction leave of the platform's record -/

@[simp] theorem State.accesses_nil (s : State) : s.accesses [] = s := rfl
@[simp] theorem State.accesses_cons (s : State) (e : Access) (l : List Access) :
    s.accesses (e :: l) = (s.access e).accesses l := rfl
@[simp] theorem State.accesses_append (s : State) (l m : List Access) :
    s.accesses (l ++ m) = (s.accesses l).accesses m := by simp [State.accesses]
@[simp] theorem State.access_read (s : State) (a : Word) : s.access (.read a) = s.afterRead a := rfl
@[simp] theorem State.access_write (s : State) (a : Word) (v : Byte) : s.access (.write a v) = s.writeByte a v := rfl
@[simp] theorem State.access_input (s : State) (port : Word) : s.access (.input port) = s.afterPortRead port := rfl
@[simp] theorem State.access_output (s : State) (port : Word) (v : Byte) :
    s.access (.output port v) = s.portWrite port v := rfl
@[simp] theorem State.accesses_wordReads (s : State) (a : Word) : s.accesses (wordReads a) = s.afterReadWord a := rfl
@[simp] theorem State.accesses_wordWrites (s : State) (a w : Word) :
    s.accesses (wordWrites a w) = s.writeWord a w := rfl
@[simp] theorem State.accesses_pushWrites_portIn (s : State) (p w : Word) :
    (s.accesses (pushWrites p w)).portIn = s.portIn := by simp [pushWrites]
@[simp] theorem State.accesses_pushWrites_memMap (s : State) (p w : Word) :
    (s.accesses (pushWrites p w)).memMap = s.memMap := by simp [pushWrites]

/-- What a device read adds to the record depends on the answer, the map and the record before. -/
theorem State.afterRead_ioTrace_congr {s t : State} (a : Word) (hr : t.readByte a = s.readByte a)
    (hp : t.memMap = s.memMap) (hi : t.ioTrace = s.ioTrace) : (t.afterRead a).ioTrace = (s.afterRead a).ioTrace := by
  have k : t.isDevice a = s.isDevice a := by simp only [State.isDevice, State.kindAt, State.regionAt, hp]
  unfold State.afterRead
  rw [hr, k]
  split <;> simp only [State.note, hi]

/-- What a store adds to the record depends on the map and the record before. -/
theorem State.writeByte_ioTrace_congr {s t : State} (a : Word) (v : Byte) (hp : t.memMap = s.memMap)
    (hi : t.ioTrace = s.ioTrace) : (t.writeByte a v).ioTrace = (s.writeByte a v).ioTrace := by
  have k : t.onWriteAt a = s.onWriteAt a := by simp only [State.onWriteAt, State.regionAt, hp]
  simp only [State.writeByte_eq, k, hi]

theorem State.writeWord_ioTrace_congr {s t : State} (a w : Word) (hp : t.memMap = s.memMap)
    (hi : t.ioTrace = s.ioTrace) : (t.writeWord a w).ioTrace = (s.writeWord a w).ioTrace :=
  State.writeByte_ioTrace_congr _ _ (by simpa using hp) (State.writeByte_ioTrace_congr _ _ hp hi)

/-- A push adds its two stores to the record (rule R95). -/
theorem State.push16_ioTrace_eq (s : State) (w : Word) :
    (s.push16 w).ioTrace = (s.accesses (pushWrites s.sp w)).ioTrace := by
  rw [State.push16_eq]
  exact State.writeByte_ioTrace_congr _ _ (by simp) (State.writeByte_ioTrace_congr _ _ rfl rfl)

/-- A frame from its fields: that reads are as before follows from the cells, the map and the record. -/
theorem Frame.of_cells {w : Writes} {s t : State} (hreg : ∀ r, r ∉ w.regs → t.reg8 r = s.reg8 r)
    (hf : w.flags = false → t.main.f = s.main.f) (halt : w.alt = false → t.alt = s.alt)
    (hix : w.ix = false → t.ix = s.ix) (hiy : w.iy = false → t.iy = s.iy) (hsp : w.sp = false → t.sp = s.sp)
    (hi : w.i = false → t.i = s.i) (hr : w.r = false → t.r = s.r)
    (hiff : w.iff = false → t.iff1 = s.iff1 ∧ t.iff2 = s.iff2) (him : w.im = false → t.im = s.im)
    (hhalted : w.halted = false → t.halted = s.halted) (hei : w.eiDelay = false → t.eiDelay = s.eiDelay)
    (hnmi : w.nmiPending = false → t.nmiPending = s.nmiPending) (hpins : w.pins = false → t.pins = s.pins)
    (hcell : ∀ x, x ∉ w.mem → t.cell x = s.cell x) (htrace : t.ioTrace = (s.accesses w.bus).ioTrace)
    (hport : t.portIn = (s.accesses w.bus).portIn) (hmap : t.memMap = s.memMap) (hrm : t.rModel = s.rModel)
    (hbio : t.blockIoFlags = s.blockIoFlags) : Frame w s t := by
  refine ⟨hreg, hf, halt, hix, hiy, hsp, hi, hr, hiff, him, hhalted, hei, hnmi, hpins, hcell, ?_, htrace, hport, hmap,
    hrm, hbio⟩
  intro x hx hd
  refine State.readByte_eq_of hmap (fun _ => hcell x hx) (fun hdev => ?_)
  rcases hd with hd | hd
  · rw [hdev] at hd; cases hd
  · exact hd

/-! ### The draws of a flag-writing operation (rule R39) -/

/-- Bits 5 and 3 after `setFlags`. -/
theorem OpenBits.of_setFlags {s t u : State} (fl : Flags) (h : s.draws ≤ u.draws)
    (hf : t.main.f = (u.setFlags fl).main.f) (hd : u.draws + 2 ≤ t.draws) : OpenBits s t := by
  refine ⟨⟨u.draws, h, by omega, ?_⟩, ⟨u.draws + 1, by omega, by omega, ?_⟩⟩ <;> rw [hf, State.setFlags_main]
  · exact (Flags.pack_bit5 _ _ _)
  · exact Flags.pack_bit3 _ _ _

/-! ### The flag computations -/

theorem getLsbD_seven (v : Byte) : v.getLsbD 7 = decide (128 ≤ v.toNat) := by
  revert v; decide

theorem getLsbD_fifteen (v : Word) : v.getLsbD 15 = decide (32768 ≤ v.toNat) := by
  have h := BitVec.msb_eq_decide v
  rw [BitVec.msb_eq_getLsbD_last] at h; exact h

theorem toInt_byte (v : Byte) : v.toInt = if v.getLsbD 7 then (v.toNat : Int) - 256 else v.toNat := by
  rw [BitVec.toInt_eq_msb_cond, BitVec.msb_eq_getLsbD_last]; rfl

theorem toInt_word (v : Word) : v.toInt = if v.getLsbD 15 then (v.toNat : Int) - 65536 else v.toNat := by
  rw [BitVec.toInt_eq_msb_cond, BitVec.msb_eq_getLsbD_last]; rfl

theorem signZero_of {v : Byte} {fl : Flags} (hs : fl.s = v.getLsbD 7) (hz : fl.z = (v == 0)) : SignZero v fl := by
  unfold SignZero; rw [hs, hz, getLsbD_seven]; simp

/-- `add8` (rule R320). -/
theorem add8_spec (a b : Byte) (cin : Bool) : Sum8 a b cin (add8 a b cin).1 (add8 a b cin).2 := by
  have ha := a.isLt
  have hb := b.isLt
  have hc : cin.toNat < 2 := by cases cin <;> simp
  have hr : (BitVec.ofNat 8 (a.toNat + b.toNat + cin.toNat)).toNat = (a.toNat + b.toNat + cin.toNat) % 256 := by simp
  refine ⟨hr, signZero_of rfl rfl, by simp [add8], ?_, rfl, by simp [add8]⟩
  simp only [add8, Bool.and_eq_true, bne_iff_ne, beq_iff_eq, ne_eq, toInt_byte, getLsbD_seven, decide_eq_decide,
    decide_eq_true_eq, hr]
  split <;> split <;> omega

/-- `sub8` (rule R321). -/
theorem sub8_spec (a b : Byte) (cin : Bool) : Diff8 a b cin (sub8 a b cin).1 (sub8 a b cin).2 := by
  have ha := a.isLt
  have hb := b.isLt
  have hc : cin.toNat < 2 := by cases cin <;> simp
  have hr : ((BitVec.ofInt 8 ((a.toNat : Int) - b.toNat - cin.toNat)).toNat : Int) =
      ((a.toNat : Int) - b.toNat - cin.toNat) % 256 := by simp; omega
  refine ⟨by simp only [sub8]; omega, signZero_of rfl rfl, by simp only [sub8, decide_eq_true_eq]; omega, ?_, rfl,
    by simp only [sub8, decide_eq_true_eq]; omega⟩
  simp only [sub8, Bool.and_eq_true, bne_iff_ne, ne_eq, toInt_byte, getLsbD_seven, decide_eq_decide,
    decide_eq_true_eq]
  generalize (BitVec.ofInt 8 ((a.toNat : Int) - b.toNat - cin.toNat)).toNat = z at *
  split <;> split <;> omega

/-- `add16` (rule R400). -/
theorem add16_spec (a b : Word) (old : Flags) : Sum16 a b old (add16 a b old).1 (add16 a b old).2 := by
  simp [Sum16, add16]

/-- `adc16` (rule R401). -/
theorem adc16_spec (a b : Word) (cin : Bool) : SumCarry16 a b cin (adc16 a b cin).1 (adc16 a b cin).2 := by
  have ha := a.isLt
  have hb := b.isLt
  have hc : cin.toNat < 2 := by cases cin <;> simp
  have hr : (BitVec.ofNat 16 (a.toNat + b.toNat + cin.toNat)).toNat = (a.toNat + b.toNat + cin.toNat) % 65536 := by simp
  refine ⟨hr, ?_, by simp [adc16], by simp [adc16], ?_, rfl, by simp [adc16]⟩
  · simp only [adc16, getLsbD_fifteen, decide_eq_true_eq]
  simp only [adc16, Bool.and_eq_true, bne_iff_ne, beq_iff_eq, ne_eq, toInt_word, getLsbD_fifteen, decide_eq_decide,
    decide_eq_true_eq, hr]
  split <;> split <;> omega

/-- `sbc16` (rule R401). -/
theorem sbc16_spec (a b : Word) (cin : Bool) : DiffCarry16 a b cin (sbc16 a b cin).1 (sbc16 a b cin).2 := by
  have ha := a.isLt
  have hb := b.isLt
  have hc : cin.toNat < 2 := by cases cin <;> simp
  have hr : ((BitVec.ofInt 16 ((a.toNat : Int) - b.toNat - cin.toNat)).toNat : Int) =
      ((a.toNat : Int) - b.toNat - cin.toNat) % 65536 := by simp; omega
  refine ⟨by simp only [sbc16]; omega, ?_, by simp [sbc16], by simp only [sbc16, decide_eq_true_eq]; omega, ?_, rfl,
    by simp only [sbc16, decide_eq_true_eq]; omega⟩
  · simp only [sbc16, getLsbD_fifteen, decide_eq_true_eq]
  simp only [sbc16, Bool.and_eq_true, bne_iff_ne, ne_eq, toInt_word, getLsbD_fifteen, decide_eq_decide,
    decide_eq_true_eq]
  generalize (BitVec.ofInt 16 ((a.toNat : Int) - b.toNat - cin.toNat)).toNat = z at *
  split <;> split <;> omega

/-! ### The fetch (rules R89, R127) -/

/-- The first read of several, and the rest. -/
theorem byteReads_succ (a : Word) (n : Nat) : byteReads a (n + 1) = .read a :: byteReads (a + 1) n := by
  simp only [byteReads, List.range_succ_eq_map, List.map_cons, List.map_map]
  congr 1
  · simp
  · apply List.map_congr_left; intro k _; simp only [Function.comp]; congr 1; bv_omega

/-- The fetch of bytes of which no proper beginning can be decided: each is read once, and the answer is that of the
whole (rules R89, R127). -/
theorem State.fetchMore_of_reads {fin : Except DecodeError Instr} (hfin : fin ≠ .error .truncated) :
    ∀ (bs got : List Byte) (n : Nat) (s : State), bs ≠ [] → bs.length ≤ n →
    s.ReadsBytes (s.pc + BitVec.ofNat 16 got.length) bs →
    (∀ k, 0 < k → k < bs.length → decode (got ++ bs.take k) = .error .truncated) →
    (decode (got ++ bs)).map Prod.fst = fin →
    State.fetchMore n got s = (s.accesses (byteReads (s.pc + BitVec.ofNat 16 got.length) bs.length), fin)
  | [], _, _, _, h, _, _, _, _ => absurd rfl h
  | v :: rest, got, 0, _, _, h, _, _, _ => by simp at h
  | v :: rest, got, n + 1, s, _, hn, hr, ht, hd => by
    obtain ⟨hv, hr⟩ := hr
    subst hv
    rw [List.length_cons, byteReads_succ]
    unfold State.fetchMore
    cases rest with
    | nil =>
      simp only [byteReads, List.length_nil, List.range_zero, List.map_nil, State.accesses_cons, State.accesses_nil,
        State.access_read]
      cases h : decode (got ++ [s.readByte (s.pc + BitVec.ofNat 16 got.length)]) with
      | ok p => rw [h] at hd; subst hd; rfl
      | error e =>
        rw [h] at hd; subst hd
        cases e with
        | unlisted p o => rfl
        | truncated => exact absurd rfl hfin
    | cons w rest =>
      have h1 := ht 1 (by omega) (by simp)
      simp only [List.take_succ_cons, List.take_zero] at h1
      simp only [h1]
      have e : s.pc + BitVec.ofNat 16 got.length + 1 = (s.afterRead (s.pc + BitVec.ofNat 16 got.length)).pc +
          BitVec.ofNat 16 (got ++ [s.readByte (s.pc + BitVec.ofNat 16 got.length)]).length := by
        simp; bv_omega
      rw [State.accesses_cons, State.access_read, e]
      apply State.fetchMore_of_reads hfin (w :: rest) _ n _ (by simp) (by simpa using hn)
      · rw [← e]; exact hr
      · intro k hk hl
        have := ht (k + 1) (by omega) (by simp at hl ⊢; omega)
        simpa using this
      · simpa using hd

/-- The same for a whole fetch. -/
theorem State.fetch_of_reads {fin : Except DecodeError Instr} (hfin : fin ≠ .error .truncated) {bs : List Byte}
    {s : State} (hne : bs ≠ []) (hlen : bs.length ≤ 4) (hr : s.ReadsBytes s.pc bs)
    (ht : ∀ k, 0 < k → k < bs.length → decode (bs.take k) = .error .truncated)
    (hd : (decode bs).map Prod.fst = fin) : s.fetch = (s.accesses (byteReads s.pc bs.length), fin) := by
  have h := State.fetchMore_of_reads hfin bs [] 4 s hne hlen (by simpa using hr) (by simpa using ht) (by simpa using hd)
  unfold State.fetch
  simpa using h

/-! ### What one step can do (rule R602) -/

/-- A step that begins with an instruction is `exec` of what is fetched at pc, or the refusal of its bytes. -/
theorem step_of_executes {s : State} (h : s.Executes) :
    step s = match s.sample.fetched with
      | .ok i => exec i (s.sample.beginInstr i)
      | .error why => .refused (.unlistedEncoding why) := by
  obtain ⟨h1, h2, h3, h4⟩ := h
  have h3' : ¬ (s.sample.takesInt s.sampledPins = true) := by
    simp only [State.takesInt, State.sample_iff1, State.sample_eiDelay, Bool.and_eq_true, Bool.not_eq_true', and_assoc]
    exact h3
  unfold step
  exact (if_neg (by simp [h1])).trans ((if_neg (by simp [h2])).trans ((if_neg h3').trans (if_neg (by simp [h4]))))

/-- Every next state of a step is a reset, an entry to a handler, an idle step, or an instruction's. -/
theorem step_next_cases {s t : State} (h : step s = .next t) :
    (s.sampledPins.reset = true ∧ t = s.sample.cpuReset) ∨
    (s.sample.nmiPending = true ∧ t = s.sample.acceptNmi) ∨
    (s.sample.takesInt s.sampledPins = true ∧ s.sample.acceptInt s.sampledPins.intBus = .next t) ∨
    (s.halted = true ∧ t = s.sample.idle) ∨
    (s.halted = false ∧ ∃ i, s.sample.fetched = .ok i ∧ exec i (s.sample.beginInstr i) = .next t) := by
  unfold step at h
  split at h
  · exact .inl ⟨‹_›, (Host.Outcome.next.inj h).symm⟩
  split at h
  · exact .inr (.inl ⟨‹_›, (Host.Outcome.next.inj h).symm⟩)
  split at h
  · exact .inr (.inr (.inl ⟨‹_›, h⟩))
  split at h
  · exact .inr (.inr (.inr (.inl ⟨‹_›, (Host.Outcome.next.inj h).symm⟩)))
  · rename_i hh
    split at h
    · exact .inr (.inr (.inr (.inr ⟨by simpa using hh, _, ‹_›, h⟩)))
    · cases h

/-- What accepting a maskable interrupt can answer (rules R605 to R608). -/
theorem acceptInt_next {s t : State} {bus : Byte} (h : s.acceptInt bus = .next t) :
    (∃ handler, t = s.maskInt.enterHandler handler) ∨ t = s.maskInt.enterVector (wordOf s.i bus) := by
  unfold State.acceptInt at h
  split at h
  · split at h
    · exact .inl ⟨_, (Host.Outcome.next.inj h).symm⟩
    · cases h
  · exact .inl ⟨_, (Host.Outcome.next.inj h).symm⟩
  · exact .inr (Host.Outcome.next.inj h).symm

end Sys2Proof.Machine
end

