-- ==== Sys2Proof/Tests/Slice0.lean ====
section
/-! SUPPORT. Small checks of the model. The words of the decode tests are written out from the encodings of
spec/30_encoding.md and spec/opcode_table.json; the expected results are the vectors of spec/95_test_vectors.md (named by
their ids), the DAA table of rule R380 or the rule named. The `witness_` theorems show that the hypotheses of the
statements can be met together. -/

namespace Sys2Proof.Tests

open Sys2Proof.Machine

/-! ## Helpers -/

/-- The machine at 0100H with zero registers and these bytes there (the conventions of spec/95_test_vectors.md). -/
def machine (bytes : List Byte) : State :=
  ({ State.reset with main := Bank.zero, sp := 0, pc := 0x0100 } : State).placeBytes 0x0100 bytes

/-- What `look` sees of the state after one step. -/
def after {α : Type} (s : State) (look : State → α) : Option α :=
  match step s with
  | .next t => some (look t)
  | .fault _ => none
  | .refused _ => none

/-- The reason a step is refused. -/
def refusal (s : State) : Option Refusal :=
  match step s with
  | .next _ => none
  | .fault _ => none
  | .refused r => some r

/-- The machine with a byte in a cell. -/
def withCell (s : State) (a : Word) (v : Byte) : State := s.writeByte a v

/-- The machine with these inputs at its next step. -/
def withPins (s : State) (p : Pins) : State := { s with pins := [p] }

/-- Flags from a byte laid out as F. -/
def flagsOf (f : Byte) : Flags := Flags.ofByte f

/-! ## Well-formedness: each check refuses an ill-formed term -/

theorem test_wellFormed_jr_refuses_po : WellFormed (.jrCondE .po 0x00) = false := by decide
theorem test_wellFormed_jr_refuses_m : WellFormed (.jrCondE .m 0x00) = false := by decide
theorem test_wellFormed_jr_accepts_c : WellFormed (.jrCondE .c 0x7F) = true := by decide
theorem test_wellFormed_rst_refuses_unaligned : WellFormed (.rst 0x0001) = false := by decide
theorem test_wellFormed_rst_refuses_beyond : WellFormed (.rst 0x0040) = false := by decide
theorem test_wellFormed_rst_accepts_38H : WellFormed (.rst 0x0038) = true := by decide

/-! ## Decoding: words written out from the encodings -/

theorem test_decode_ld_b_e : decode [0b01000011] = .ok (.ldRR .b .e, []) := by decide
theorem test_decode_ld_h_n : decode [0b00100110, 0xFF] = .ok (.ldRN .h 0xFF, []) := by decide
theorem test_decode_ld_a_ixd : decode [0xDD, 0b01111110, 0x80] = .ok (.ldRAtIxd .a 0x80, []) := by decide
theorem test_decode_ld_ixd_n : decode [0xDD, 0b00110110, 0xFE, 0x55] = .ok (.ldAtIxdN 0xFE 0x55, []) := by decide
theorem test_decode_ld_iyd_b : decode [0xFD, 0b01110000, 0x05] = .ok (.ldAtIydR 0x05 .b, []) := by decide
theorem test_decode_ld_a_i : decode [0xED, 0b01010111] = .ok (.ldAI, []) := by decide
theorem test_decode_ld_bc_nn : decode [0b00000001, 0x34, 0x12] = .ok (.ldPairNn .bc 0x1234, []) := by decide
theorem test_decode_ld_sp_at_nn : decode [0xED, 0b01111011, 0x00, 0x80] = .ok (.ldPairAtNn .sp 0x8000, []) := by decide
theorem test_decode_ld_hl_at_nn_short : decode [0b00101010, 0x00, 0x80] = .ok (.ldHlAtNn 0x8000, []) := by decide
theorem test_decode_ld_hl_at_nn_long : decode [0xED, 0b01101011, 0x00, 0x80] = .ok (.ldPairAtNn .hl 0x8000, []) := by decide
theorem test_decode_push_af : decode [0b11110101] = .ok (.pushPair .af, []) := by decide
theorem test_decode_pop_iy : decode [0xFD, 0b11100001] = .ok (.popIy, []) := by decide
theorem test_decode_ex_de_hl : decode [0b11101011] = .ok (.exDeHl, []) := by decide
theorem test_decode_lddr : decode [0xED, 0b10111000] = .ok (.lddr, []) := by decide
theorem test_decode_cpir : decode [0xED, 0b10110001] = .ok (.cpir, []) := by decide
theorem test_decode_adc_a_ix_10 : decode [0xDD, 0x8E, 0x0A] = .ok (.adcAtIxd 0x0A, []) := by decide
theorem test_decode_sub_n : decode [0b11010110, 0x09] = .ok (.subN 0x09, []) := by decide
theorem test_decode_cp_l : decode [0b10111101] = .ok (.cpR .l, []) := by decide
theorem test_decode_inc_iy_4 : decode [0xFD, 0x34, 0x04] = .ok (.incAtIyd 0x04, []) := by decide
theorem test_decode_daa : decode [0b00100111] = .ok (.daa, []) := by decide
theorem test_decode_im2 : decode [0xED, 0b01011110] = .ok (.im2, []) := by decide
theorem test_decode_halt : decode [0b01110110] = .ok (.halt, []) := by decide
theorem test_decode_sbc_hl_sp : decode [0xED, 0b01110010] = .ok (.sbcHlPair .sp, []) := by decide
theorem test_decode_add_iy_iy : decode [0xFD, 0b00101001] = .ok (.addIyPair .iy, []) := by decide
theorem test_decode_rlca : decode [0b00000111] = .ok (.rlca, []) := by decide
theorem test_decode_srl_d : decode [0xCB, 0b00111010] = .ok (.srlR .d, []) := by decide
theorem test_decode_sla_ix_10 : decode [0xDD, 0xCB, 0x0A, 0x26] = .ok (.slaAtIxd 0x0A, []) := by decide
theorem test_decode_rld : decode [0xED, 0b01101111] = .ok (.rld, []) := by decide
theorem test_decode_bit_3_hl : decode [0xCB, 0b01011110] = .ok (.bitAtHl 3, []) := by decide
theorem test_decode_set_3_iy : decode [0xFD, 0xCB, 0x80, 0xDE] = .ok (.setAtIyd 3 0x80, []) := by decide
theorem test_decode_res_7_b : decode [0xCB, 0b10111000] = .ok (.resR 7 .b, []) := by decide
theorem test_decode_jp_m_nn : decode [0b11111010, 0x34, 0x12] = .ok (.jpCondNn .m 0x1234, []) := by decide
theorem test_decode_jr_nc : decode [0b00110000, 0x01] = .ok (.jrCondE .nc 0x01, []) := by decide
theorem test_decode_djnz : decode [0b00010000, 0xF7] = .ok (.djnz 0xF7, []) := by decide
theorem test_decode_call_z : decode [0b11001100, 0x20, 0x01] = .ok (.callCondNn .z 0x0120, []) := by decide
theorem test_decode_ret_pe : decode [0b11101000] = .ok (.retCond .pe, []) := by decide
theorem test_decode_retn : decode [0xED, 0b01000101] = .ok (.retn, []) := by decide
theorem test_decode_rst_10H : decode [0b11010111] = .ok (.rst 0x0010, []) := by decide
theorem test_decode_in_d_c : decode [0xED, 0b01010000] = .ok (.inRC .d, []) := by decide
theorem test_decode_out_c_a : decode [0xED, 0b01111001] = .ok (.outCR .a, []) := by decide
theorem test_decode_otdr : decode [0xED, 0b10111011] = .ok (.otdr, []) := by decide

theorem test_decode_leaves_the_rest : decode [0x00, 0xC9] = .ok (.nop, [0xC9]) := by decide
theorem test_decode_truncated : decode [0xDD, 0xCB, 0x0A] = .error .truncated := by decide
theorem test_decodeTableWord_ld_bc_nn : decodeTableWord 24 0x013412 = some (.ldPairNn .bc 0x1234) := by decide

/-- Rule R137: the first byte of the table's value is the first byte; the other way round these bytes would be `RR B`. -/
theorem test_decodeTableWord_first_byte_leftmost : decodeTableWord 16 0x18CB = some (.jrE 0xCB) := by decide

/-- Rules R133 and R137: no row matches CB 36; the other way round these bytes would be `LD (HL),CBH`. -/
theorem test_decodeTableWord_unlisted : decodeTableWord 16 0xCB36 = none := by decide

/-! ## Encodings the model must refuse (section 2.12) -/

theorem test_refused_cb_30 : refusal (machine [0xCB, 0x30]) = some (.unlistedEncoding (.unlisted .cb 0x30)) := by decide
theorem test_refused_ed_70 : refusal (machine [0xED, 0x70]) = some (.unlistedEncoding (.unlisted .ed 0x70)) := by decide
theorem test_refused_ed_71 : refusal (machine [0xED, 0x71]) = some (.unlistedEncoding (.unlisted .ed 0x71)) := by decide
theorem test_refused_dd_24 : refusal (machine [0xDD, 0x24]) = some (.unlistedEncoding (.unlisted (.index .ix) 0x24)) := by decide
theorem test_refused_dd_dd : refusal (machine [0xDD, 0xDD, 0x21, 0x00]) = some (.unlistedEncoding (.unlisted (.index .ix) 0xDD)) := by decide
theorem test_refused_fd_cb_00 : refusal (machine [0xFD, 0xCB, 0x00, 0x00]) = some (.unlistedEncoding (.unlisted (.indexBit .iy) 0x00)) := by decide
theorem test_refused_dd_cb_36 : refusal (machine [0xDD, 0xCB, 0x00, 0x36]) = some (.unlistedEncoding (.unlisted (.indexBit .ix) 0x36)) := by decide

/-! ## Steps -/

/-- V40-1. -/
theorem test_ld_a_b :
    after ({ machine [0x78] with main := { Bank.zero with a := 0x11, b := 0x22 } } : State)
      (fun t => (t.main.a, t.pc)) = some (0x22, 0x0101) := by decide

/-- V40-4. -/
theorem test_ld_c_at_hl :
    after (withCell ({ machine [0x4E] with main := { Bank.zero with h := 0xFF, l := 0xFF } } : State) 0xFFFF 0x99)
      (fun t => (t.main.c, t.pc)) = some (0x99, 0x0101) := by decide

/-- V40-5. -/
theorem test_ld_at_hl_h :
    after ({ machine [0x74] with main := { Bank.zero with h := 0x80 } } : State)
      (fun t => (t.readByte 0x8000, t.pc)) = some (0x80, 0x0101) := by decide

/-- V40-6. -/
theorem test_ld_at_hl_n_over_itself :
    after ({ machine [0x36, 0x12] with main := { Bank.zero with h := 0x01, l := 0x01 } } : State)
      (fun t => (t.readByte 0x0101, t.pc)) = some (0x12, 0x0102) := by decide

/-- V40-7. -/
theorem test_ld_a_ixd_negative :
    after (withCell ({ machine [0xDD, 0x7E, 0x80] with ix := 0x8000 } : State) 0x7F80 0x77)
      (fun t => (t.main.a, t.pc)) = some (0x77, 0x0103) := by decide

/-- V40-8. -/
theorem test_ld_h_iyd_wraps :
    after (withCell ({ machine [0xFD, 0x66, 0x7F] with iy := 0xFFF0 } : State) 0x006F 0x42)
      (fun t => (t.main.h, t.pc)) = some (0x42, 0x0103) := by decide

/-- V40-10. -/
theorem test_ld_ixd_n :
    after ({ machine [0xDD, 0x36, 0xFE, 0x55] with ix := 0x4000 } : State)
      (fun t => (t.readByte 0x3FFE, t.pc)) = some (0x55, 0x0104) := by decide

/-- V40-13. -/
theorem test_ld_i_a :
    after ({ machine [0xED, 0x47] with main := { Bank.zero with a := 0x3F, f := 0xFF } } : State)
      (fun t => (t.i, t.main.f, t.pc)) = some (0x3F, 0xFF, 0x0102) := by decide

/-- U5: two fetches counted in the low seven bits before `LD A,R` reads, bit 7 kept. -/
theorem test_ld_a_r_counts :
    after ({ machine [0xED, 0x5F] with r := 0xFE, rModel := .m1Count } : State)
      (fun t => (t.main.a, t.r)) = some (0x80, 0x80) := by decide

/-- V40-17. -/
theorem test_ld_at_de_a :
    after ({ machine [0x12] with main := { Bank.zero with d := 0x20, a := 0x9C } } : State)
      (fun t => (t.readByte 0x2000, t.pc)) = some (0x9C, 0x0101) := by decide

/-- V41-3. -/
theorem test_ld_hl_at_nn_wraps :
    after (withCell (withCell (machine [0x2A, 0xFF, 0xFF]) 0xFFFF 0xCD) 0x0000 0xAB)
      (fun t => (t.hl, t.pc)) = some (0xABCD, 0x0103) := by decide

/-- V41-6. -/
theorem test_ld_at_nn_sp :
    after ({ machine [0xED, 0x73, 0xFF, 0x7F] with sp := 0xC0DE } : State)
      (fun t => (t.readByte 0x7FFF, t.readByte 0x8000, t.pc)) = some (0xDE, 0xC0, 0x0104) := by decide

/-- V41-8. -/
theorem test_ld_sp_hl :
    after ({ machine [0xF9] with main := { Bank.zero with h := 0xC0 } } : State)
      (fun t => (t.sp, t.pc)) = some (0xC000, 0x0101) := by decide

/-- V41-10. -/
theorem test_push_af_wraps :
    after ({ machine [0xF5] with main := { Bank.zero with a := 0x12, f := 0xFF }, sp := 0x0001 } : State)
      (fun t => (t.sp, t.readByte 0x0000, t.readByte 0xFFFF)) = some (0xFFFF, 0x12, 0xFF) := by decide

/-- V41-11. -/
theorem test_pop_af_all_of_f :
    after (withCell (withCell ({ machine [0xF1] with sp := 0xBFFE } : State) 0xBFFE 0xFF) 0xBFFF 0x12)
      (fun t => (t.main.a, t.main.f, t.sp)) = some (0x12, 0xFF, 0xC000) := by decide

/-- V41-15. -/
theorem test_pop_iy :
    after (withCell (withCell ({ machine [0xFD, 0xE1] with sp := 0xBFFE } : State) 0xBFFE 0x44) 0xBFFF 0x33)
      (fun t => (t.iy, t.sp, t.pc)) = some (0x3344, 0xC000, 0x0102) := by decide

/-- V42-2. -/
theorem test_ex_af :
    after ({ machine [0x08] with main := { Bank.zero with a := 0x12, f := 0xFF }, alt := { Bank.zero with a := 0x34 } } : State)
      (fun t => (t.af, t.alt.a, t.alt.f)) = some (0x3400, 0x12, 0xFF) := by decide

/-- V42-3. -/
theorem test_exx :
    after ({ machine [0xD9] with main := { Bank.zero with b := 0x01, c := 0x02, a := 0x77 }, alt := { Bank.zero with b := 0x11, c := 0x12 } } : State)
      (fun t => (t.bc, t.alt.b, t.alt.c, t.main.a)) = some (0x1112, 0x01, 0x02, 0x77) := by decide

/-- V42-4. -/
theorem test_ex_sp_hl :
    after (withCell (withCell ({ machine [0xE3] with main := { Bank.zero with h := 0x12, l := 0x34 }, sp := 0xBFFE } : State) 0xBFFE 0x78) 0xBFFF 0x56)
      (fun t => (t.hl, t.readByte 0xBFFE, t.readByte 0xBFFF)) = some (0x5678, 0x34, 0x12) := by decide

/-- V42-5. -/
theorem test_ldi :
    after (withCell ({ machine [0xED, 0xA0] with main := { Bank.zero with h := 0x20, d := 0x30, c := 0x02 } } : State) 0x2000 0x5A)
      (fun t => (t.bc, t.de, t.hl, t.readByte 0x3000)) = some (0x0001, 0x3001, 0x2001, 0x5A) := by decide

/-- V42-8: BC = 0 becomes FFFFH and the instruction repeats. -/
theorem test_lddr_from_zero :
    after ({ machine [0xED, 0xB8] with main := { Bank.zero with d := 0x80 } } : State)
      (fun t => (t.bc, t.de, t.hl, t.pc)) = some (0xFFFF, 0x7FFF, 0xFFFF, 0x0100) := by decide

/-- Rule R291: a match ends the search while BC is not 0. -/
theorem test_cpir_stops_on_match :
    after (withCell ({ machine [0xED, 0xB1] with main := { Bank.zero with a := 0x33, h := 0x20, c := 0x04 } } : State) 0x2000 0x33)
      (fun t => (t.bc, t.hl, t.pc)) = some (0x0003, 0x2001, 0x0102) := by decide

/-- V42-12, its first step. -/
theorem test_cpdr_repeats :
    after (withCell ({ machine [0xED, 0xB9] with main := { Bank.zero with a := 0x99, h := 0x20, l := 0x01, c := 0x02 } } : State) 0x2001 0x22)
      (fun t => (t.bc, t.hl, t.pc)) = some (0x0001, 0x2000, 0x0100) := by decide

/-- V43-3. -/
theorem test_adc_a_ixd :
    after (withCell ({ machine [0xDD, 0x8E, 0x0A] with main := { Bank.zero with a := 0x01, f := 0x01 }, ix := 0x8000 } : State) 0x800A 0xFE)
      (fun t => (t.main.a, t.pc)) = some (0x00, 0x0103) := by decide

/-- V43-4. -/
theorem test_add_a_a :
    after ({ machine [0x87] with main := { Bank.zero with a := 0x80 } } : State)
      (fun t => (t.main.a, t.pc)) = some (0x00, 0x0101) := by decide

/-- V43-9. -/
theorem test_cp_keeps_a :
    after ({ machine [0xFE, 0x20] with main := { Bank.zero with a := 0x10 } } : State)
      (fun t => (t.main.a, t.pc)) = some (0x10, 0x0102) := by decide

/-- V43-10. -/
theorem test_inc_at_hl :
    after (withCell ({ machine [0x34] with main := { Bank.zero with h := 0x80 } } : State) 0x8000 0x7F)
      (fun t => (t.readByte 0x8000, t.pc)) = some (0x80, 0x0101) := by decide

/-- V43-11. -/
theorem test_dec_ixd :
    after ({ machine [0xDD, 0x35, 0xFF] with ix := 0x8001 } : State)
      (fun t => (t.readByte 0x8000, t.pc)) = some (0xFF, 0x0103) := by decide

/-- V44-2. -/
theorem test_neg :
    after ({ machine [0xED, 0x44] with main := { Bank.zero with a := 0x01 } } : State)
      (fun t => (t.main.a, t.pc)) = some (0xFF, 0x0102) := by decide

/-- V44-10. -/
theorem test_halt :
    after (machine [0x76]) (fun t => (t.halted, t.pc)) = some (true, 0x0101) := by decide

/-- V44-12. -/
theorem test_ei :
    after (machine [0xFB]) (fun t => (t.iff1, t.iff2, t.eiDelay, t.pc)) = some (true, true, true, 0x0101) := by decide

/-- V44-14. -/
theorem test_im1 :
    after ({ machine [0xED, 0x56] with im := .im2 } : State)
      (fun t => (t.im, t.pc)) = some (IntMode.im1, 0x0102) := by decide

/-- V45-4. -/
theorem test_add_hl_sp :
    after ({ machine [0x39] with main := { Bank.zero with l := 0x01 }, sp := 0x7FFF } : State)
      (fun t => (t.hl, t.pc)) = some (0x8000, 0x0101) := by decide

/-- V45-9. -/
theorem test_sbc_hl_hl_with_carry :
    after ({ machine [0xED, 0x62] with main := { Bank.zero with h := 0x12, l := 0x34, f := 0x01 } } : State)
      (fun t => (t.hl, t.pc)) = some (0xFFFF, 0x0102) := by decide

/-- V45-11. -/
theorem test_add_ix_ix :
    after ({ machine [0xDD, 0x29] with ix := 0x4000 } : State)
      (fun t => (t.ix, t.pc)) = some (0x8000, 0x0102) := by decide

/-- V45-13. -/
theorem test_inc_bc_wraps_no_flag :
    after ({ machine [0x03] with main := { Bank.zero with b := 0xFF, c := 0xFF, f := 0xFF } } : State)
      (fun t => (t.bc, t.main.f)) = some (0x0000, 0xFF) := by decide

/-- V46-1. -/
theorem test_rl_at_hl :
    after (withCell ({ machine [0xCB, 0x16] with main := { Bank.zero with h := 0x80, f := 0x01 } } : State) 0x8000 0x80)
      (fun t => (t.readByte 0x8000, t.pc)) = some (0x01, 0x0102) := by decide

/-- V46-2. -/
theorem test_sla_ixd :
    after (withCell ({ machine [0xDD, 0xCB, 0x0A, 0x26] with ix := 0x8000 } : State) 0x800A 0xC0)
      (fun t => (t.readByte 0x800A, t.pc)) = some (0x80, 0x0104) := by decide

/-- V46-4. -/
theorem test_rld :
    after (withCell ({ machine [0xED, 0x6F] with main := { Bank.zero with a := 0x7A, h := 0x50 } } : State) 0x5000 0x31)
      (fun t => (t.main.a, t.readByte 0x5000)) = some (0x73, 0x1A) := by decide

/-- V46-5. -/
theorem test_rrd :
    after (withCell ({ machine [0xED, 0x67] with main := { Bank.zero with a := 0x84, h := 0x50 } } : State) 0x5000 0x20)
      (fun t => (t.main.a, t.readByte 0x5000)) = some (0x80, 0x42) := by decide

/-- V47-1. -/
theorem test_bit_keeps_registers :
    after ({ machine [0xCB, 0x47] with main := { Bank.zero with a := 0xFE } } : State)
      (fun t => (t.main.a, t.pc)) = some (0xFE, 0x0102) := by decide

/-- V47-5. -/
theorem test_res_7_b_no_flag :
    after ({ machine [0xCB, 0xB8] with main := { Bank.zero with b := 0xFF, f := 0xFF } } : State)
      (fun t => (t.main.b, t.main.f)) = some (0x7F, 0xFF) := by decide

/-- V47-10. -/
theorem test_set_3_iyd_wraps :
    after (machine [0xFD, 0xCB, 0x80, 0xDE]) (fun t => (t.readByte 0xFF80, t.pc)) = some (0x08, 0x0104) := by decide

/-- V48-2. -/
theorem test_jp_z_taken :
    after ({ machine [0xCA, 0x00, 0x80] with main := { Bank.zero with f := 0x40 } } : State)
      (fun t => t.pc) = some 0x8000 := by decide

/-- V48-3. -/
theorem test_jp_z_not_taken :
    after (machine [0xCA, 0x00, 0x80]) (fun t => t.pc) = some 0x0103 := by decide

/-- Table 1.4. -/
theorem test_jr_back :
    after (machine [0x18, 0x80]) (fun t => t.pc) = some 0x0082 := by decide

/-- Table 1.4. -/
theorem test_jr_forward :
    after (machine [0x18, 0x7F]) (fun t => t.pc) = some 0x0181 := by decide

/-- V48-6. -/
theorem test_djnz_from_zero :
    after (machine [0x10, 0xFE]) (fun t => (t.main.b, t.pc)) = some (0xFF, 0x0100) := by decide

/-- Table 1.4. -/
theorem test_djnz_to_zero :
    after ({ machine [0x10, 0x7F] with main := { Bank.zero with b := 0x01 } } : State)
      (fun t => (t.main.b, t.pc)) = some (0x00, 0x0102) := by decide

/-- V48-7. -/
theorem test_call :
    after ({ machine [0xCD, 0x00, 0x20] with sp := 0xC000 } : State)
      (fun t => (t.pc, t.sp, t.readByte 0xBFFF, t.readByte 0xBFFE)) = some (0x2000, 0xBFFE, 0x01, 0x03) := by decide

/-- V48-8. -/
theorem test_call_c_not_taken :
    after ({ machine [0xDC, 0x00, 0x20] with sp := 0xC000 } : State)
      (fun t => (t.pc, t.sp)) = some (0x0103, 0xC000) := by decide

/-- V48-15. -/
theorem test_call_across_top_of_memory :
    after ((({ State.reset with pc := 0xFFFE, sp := 0xC000 } : State).placeBytes 0xFFFE [0xCD, 0x00, 0x20]))
      (fun t => (t.pc, t.readByte 0xBFFF, t.readByte 0xBFFE)) = some (0x2000, 0x00, 0x01) := by decide

/-- V48-11. -/
theorem test_ret_po_not_taken :
    after ({ machine [0xE0] with main := { Bank.zero with f := 0x04 }, sp := 0xBFFE } : State)
      (fun t => (t.pc, t.sp)) = some (0x0101, 0xBFFE) := by decide

/-- V48-13; D32. -/
theorem test_reti_keeps_flip_flops :
    after (withCell (withCell ({ machine [0xED, 0x4D] with sp := 0xBFFE, iff2 := true } : State) 0xBFFE 0x03) 0xBFFF 0x01)
      (fun t => (t.pc, t.sp, t.iff1, t.iff2)) = some (0x0103, 0xC000, false, true) := by decide

/-- V48-14. -/
theorem test_retn :
    after (withCell (withCell ({ machine [0xED, 0x45] with sp := 0xBFFE, iff2 := true } : State) 0xBFFE 0x03) 0xBFFF 0x01)
      (fun t => (t.pc, t.sp, t.iff1)) = some (0x0103, 0xC000, true) := by decide

/-- Table 1.3. -/
theorem test_rst_28H :
    after ({ machine [0xEF] with sp := 0xC000 } : State)
      (fun t => (t.pc, t.readByte 0xBFFF, t.readByte 0xBFFE)) = some (0x0028, 0x01, 0x01) := by decide

/-- V49-1. -/
theorem test_in_a_n :
    after ({ machine [0xDB, 0x10] with main := { Bank.zero with a := 0x7F, f := 0xFF }, portIn := [0x00] } : State)
      (fun t => (t.main.a, t.main.f, t.ioTrace)) = some (0x00, 0xFF, [IoEvent.portRead 0x7F10 0x00]) := by decide

/-- V49-3: the port address has B before the decrement. -/
theorem test_ini :
    after ({ machine [0xED, 0xA2] with main := { Bank.zero with b := 0x01, c := 0x10, h := 0x40 }, portIn := [0xAB] } : State)
      (fun t => (t.main.b, t.hl, t.readByte 0x4000, t.ioTrace)) = some (0x00, 0x4001, 0xAB, [IoEvent.portRead 0x0110 0xAB]) := by decide

/-- V49-8: the port address has B after the decrement. -/
theorem test_outi :
    after (withCell ({ machine [0xED, 0xA3] with main := { Bank.zero with b := 0x01, c := 0x10, h := 0x40 } } : State) 0x4000 0x5A)
      (fun t => (t.main.b, t.hl, t.ioTrace)) = some (0x00, 0x4001, [IoEvent.portWrite 0x0010 0x5A]) := by decide

/-- V49-9. -/
theorem test_otdr_from_zero :
    after (withCell ({ machine [0xED, 0xBB] with main := { Bank.zero with c := 0x10, h := 0x40 } } : State) 0x4000 0x77)
      (fun t => (t.main.b, t.hl, t.pc, t.ioTrace)) = some (0xFF, 0x3FFF, 0x0100, [IoEvent.portWrite 0xFF10 0x77]) := by decide

/-- V49-6. -/
theorem test_out_n_a :
    after ({ machine [0xD3, 0x10] with main := { Bank.zero with a := 0x55 } } : State)
      (fun t => t.ioTrace) = some [IoEvent.portWrite 0x5510 0x55] := by decide

/-! ## Flags: cells of the matrices of sections 2.4, 2.4b, 2.6 and 2.7, and of the DAA table -/

theorem test_add8_7F_01 : add8 0x7F 0x01 false = (0x80, flagsOf 0b10010100) := by decide
theorem test_add8_80_80 : add8 0x80 0x80 false = (0x00, flagsOf 0b01000101) := by decide
theorem test_add8_carry_in : add8 0xAA 0x55 true = (0x00, flagsOf 0b01010001) := by decide
theorem test_sub8_80_01 : sub8 0x80 0x01 false = (0x7F, flagsOf 0b00010110) := by decide
theorem test_sub8_00_00_borrow : sub8 0x00 0x00 true = (0xFF, flagsOf 0b10010011) := by decide
theorem test_sub8_7F_FF : sub8 0x7F 0xFF false = (0x80, flagsOf 0b10000111) := by decide
theorem test_inc8_7F : inc8 0x7F (flagsOf 0x01) = (0x80, flagsOf 0b10010101) := by decide
theorem test_dec8_80 : dec8 0x80 (flagsOf 0x01) = (0x7F, flagsOf 0b00010111) := by decide
theorem test_daa_T5 : daaOf 0x9A (flagsOf 0x00) = (0x00, flagsOf 0b01010101) := by decide
theorem test_daa_T11 : daaOf 0x0F (flagsOf 0x12) = (0x09, flagsOf 0b00000110) := by decide
theorem test_daa_T13 : daaOf 0xFF (flagsOf 0x13) = (0x99, flagsOf 0b10000111) := by decide
theorem test_daa_outside_the_table : daaOf 0x0A (flagsOf 0x10) = (0x10, flagsOf 0b00010000) := by decide
theorem test_add16_bit_11 : add16 0x0FFF 0x0001 (flagsOf 0xC4) = (0x1000, flagsOf 0b11010100) := by decide
theorem test_add16_keeps_z : add16 0xFFFF 0x0001 (flagsOf 0x00) = (0x0000, flagsOf 0b00010001) := by decide
theorem test_adc16_overflow : adc16 0x7FFF 0x0000 true = (0x8000, flagsOf 0b10010100) := by decide
theorem test_sbc16_overflow : sbc16 0x8000 0x0001 false = (0x7FFF, flagsOf 0b00010110) := by decide
theorem test_and_flags : logicFlags (0x80 &&& 0x80) true = flagsOf 0b10010000 := by decide
theorem test_xor_flags : logicFlags (0x5A ^^^ 0x5A) false = flagsOf 0b01000100 := by decide
theorem test_ld_a_i_flags : interruptFlags 0x80 false (flagsOf 0xFF) = flagsOf 0b10000001 := by decide
theorem test_rlc_81 : rot .rlc 0x81 false = (0x03, true) := by decide
theorem test_rrc_01 : rot .rrc 0x01 false = (0x80, true) := by decide
theorem test_rl_00 : rot .rl 0x00 true = (0x01, false) := by decide
theorem test_rr_80 : rot .rr 0x80 true = (0xC0, false) := by decide
theorem test_sla_80 : rot .sla 0x80 true = (0x00, true) := by decide
theorem test_sra_81 : rot .sra 0x81 false = (0xC0, true) := by decide
theorem test_srl_81 : rot .srl 0x81 false = (0x40, true) := by decide
theorem test_rotate_flags_FE : rotFlags 0xFE true = flagsOf 0b10000001 := by decide
theorem test_rlca_flags_kept : accRotFlags (flagsOf 0xC4) true = flagsOf 0b11000101 := by decide

/-! ## Interrupts and reset (section 2.11): PC = 0123H and SP = C000H before, a NOP there -/

/-- The start of the vectors V60. -/
def boundary : State := { State.reset with pc := 0x0123, sp := 0xC000 }

/-- A maskable request with this byte on the bus. -/
def intPins (bus : Byte) : Pins := { Pins.quiet with intLine := true, intBus := bus }

/-- An edge of the non-maskable request together with a maskable one. -/
def nmiPins : Pins := { Pins.quiet with nmiEdge := true, intLine := true }

/-- The reset input together with both requests. -/
def resetPins : Pins := { reset := true, nmiEdge := true, intLine := true, intBus := 0xFF }

/-- V60-1. -/
theorem test_int_mode_1 :
    after (withPins { boundary with iff1 := true, iff2 := true, im := .im1 } (intPins 0))
      (fun t => (t.pc, t.sp, t.iff1, t.iff2, t.readByte 0xBFFF, t.readByte 0xBFFE)) = some (0x0038, 0xBFFE, false, false, 0x01, 0x23) := by decide

/-- V60-2. -/
theorem test_int_ignored :
    after (withPins { boundary with im := .im1 } (intPins 0))
      (fun t => (t.pc, t.sp)) = some (0x0124, 0xC000) := by decide

/-- V60-3. -/
theorem test_int_postponed_after_ei :
    after (withPins { boundary with iff1 := true, iff2 := true, im := .im1, eiDelay := true } (intPins 0))
      (fun t => (t.pc, t.iff1, t.eiDelay)) = some (0x0124, true, false) := by decide

/-- V60-4. -/
theorem test_int_mode_0_restart :
    after (withPins { boundary with iff1 := true, iff2 := true } (intPins 0xD7))
      (fun t => (t.pc, t.sp, t.iff1)) = some (0x0010, 0xBFFE, false) := by decide

/-- V60-5. -/
theorem test_int_mode_0_call : refusal (withPins { boundary with iff1 := true, iff2 := true } (intPins 0xCD)) = some (.modeZeroSupplied 0xCD) := by decide

/-- V60-7. -/
theorem test_int_mode_2_odd_vector :
    after (withCell (withCell (withPins { boundary with iff1 := true, iff2 := true, im := .im2, i := 0x80 } (intPins 0xFF)) 0x80FF 0x34) 0x8100 0x12)
      (fun t => (t.pc, t.sp, t.readByte 0xBFFE)) = some (0x1234, 0xBFFE, 0x23) := by decide

/-- V60-8, V60-10. -/
theorem test_nmi_before_int :
    after (withPins { boundary with iff1 := true, iff2 := true } nmiPins)
      (fun t => (t.pc, t.iff1, t.iff2, t.nmiPending)) = some (0x0066, false, true, false) := by decide

/-- V60-14. -/
theorem test_nmi_wakes_halt :
    after (withPins { boundary with halted := true, eiDelay := false } nmiPins)
      (fun t => (t.pc, t.halted, t.readByte 0xBFFE)) = some (0x0066, false, 0x23) := by decide

/-- V60-13. -/
theorem test_int_wakes_halt :
    after (withPins { boundary with halted := true, iff1 := true, iff2 := true, im := .im1 } (intPins 0))
      (fun t => (t.pc, t.halted, t.iff1)) = some (0x0038, false, false) := by decide

/-- V60-12. -/
theorem test_halted_stays :
    after (withPins { boundary with halted := true } (intPins 0))
      (fun t => (t.pc, t.sp, t.halted)) = some (0x0123, 0xC000, true) := by decide

/-- V70-1. -/
theorem test_reset_before_nmi :
    after (withPins (withCell { boundary with halted := true, iff1 := true, iff2 := true, im := .im2, i := 0x80 } 0x4000 0x11) resetPins)
      (fun t => (t.pc, t.iff1, t.im, t.i, t.halted, t.readByte 0x4000)) = some (0x0000, false, IntMode.im0, 0x00, false, 0x11) := by decide

/-! ## The platform: memory that is not RAM -/

/-- ROM from 0000H to 3FFFH with RAM beneath that takes the writes, nothing from 8000H to 80FFH (reads FFH), a device at
C000H that is handed every write, one at C001H whose writes go nowhere. -/
def mapped : State :=
  { State.reset with memMap :=
      [{ base := 0x0000, size := 0x4000, kind := .rom [(0x3FFF, 0xC9)], onWrite := { kept := true, handed := false } },
       { base := 0x8000, size := 0x100, kind := .absent 0xFF, onWrite := { kept := false, handed := false } },
       { base := 0xC000, size := 1, kind := .device, onWrite := { kept := false, handed := true } },
       { base := 0xC001, size := 1, kind := .device, onWrite := { kept := false, handed := false } }] }

/-- D21: what a write to ROM does is the map's; here the cell beneath keeps it and the ROM reads as before. -/
theorem test_rom_over_ram : (mapped.writeByte 0x3FFF 0x55).readByte 0x3FFF = 0xC9 ∧
    (mapped.writeByte 0x3FFF 0x55).cell 0x3FFF = 0x55 := by decide
theorem test_ram_above_rom : (mapped.writeByte 0x4000 0x55).readByte 0x4000 = 0x55 := by decide
theorem test_absent_reads_its_byte : (mapped.writeByte 0x8000 0x55).readByte 0x8000 = 0xFF ∧
    (mapped.writeByte 0x8000 0x55).cell 0x8000 = 0x00 := by decide
theorem test_device_is_handed_a_write : (mapped.writeByte 0xC000 0x12).ioTrace = [.memWrite 0xC000 0x12] ∧
    (mapped.writeByte 0xC001 0x12).ioTrace = [] := by decide

/-- R87: each read is one access; the device answers the second one knowing of the first and of the write before. -/
theorem test_device_answers_from_the_history :
    ((mapped.writeByte 0xC000 0x12).afterRead 0xC001).readByte 0xC001 = Config.deviceByte 0xC001
      [.memRead 0xC001 (Config.deviceByte 0xC001 [.memWrite 0xC000 0x12]), .memWrite 0xC000 0x12] := rfl

/-- `LD A,(HL)` at a device: one access; at RAM: none that the platform sees. -/
theorem test_load_from_device_is_seen :
    after { machine [0x7E] with memMap := mapped.memMap.drop 2, main := { Bank.zero with h := 0xC0 } }
      (fun t => t.ioTrace.length) = some 1 ∧
    after (machine [0x7E]) (fun t => t.ioTrace.length) = some 0 := by decide

/-- R89: an instruction of one byte at the last address before a device does not read the device. -/
theorem test_fetch_reads_no_more_than_the_instruction :
    after { State.reset with pc := 0xBFFF, memMap := mapped.memMap } (fun t => (t.pc, t.ioTrace)) = some (0xC000, []) := by
  decide

theorem test_write_of_zero_leaves_no_entry : ((State.reset.writeByte 0x4000 0x55).writeByte 0x4000 0x00).mem = [] := by decide

/-! ## The first instruction after reset, placed as log entry 14 says -/

theorem test_withFetchWord_runs_it :
    after (State.reset.withFetchWord 24 0xC33412) (fun t => t.pc) = some 0x1234 := by decide

/-! ## Witnesses: the hypotheses of the statements can be met together -/

theorem witness_DecodeEncodeRoundTrip :
    WellFormed (.rst 0x0038) = true ∧ WellFormed (.jrCondE .nz 0xFF) = true := by decide

theorem witness_DecodedBytesAreTheEncoding : decode [0xED, 0x70, 0x00] = .error (.unlisted .ed 0x70) ∧
    decode [0xED, 0x78, 0x00] = .ok (.inRC .a, [0x00]) := by decide

/-- The two ends of each range of the CB and ED pages, the three first clauses of the index pages. -/
theorem witness_UnlistedEncodingsAreRefused_cb_ed :
    (∀ b ∈ [0x30, 0x37], (machine [0xCB, b]).Executes ∧ (machine [0xCB, b]).ReadsBytes 0x0100 [0xCB, b] ∧
      inRanges b [(0x30, 0x37)]) ∧
    (∀ b ∈ [0x00, 0x3F, 0x4C, 0xBC, 0xFF], (machine [0xED, b]).Executes ∧
      (machine [0xED, b]).ReadsBytes 0x0100 [0xED, b] ∧ inRanges b unlistedED) ∧
    (machine []).pc = 0x0100 := by
  simp only [State.ReadsBytes]; unfold State.Executes inRanges; decide

theorem witness_UnlistedEncodingsAreRefused_index :
    (∀ p ∈ [0xDD, 0xFD], ∀ b ∈ [0x00, 0x08, 0xCA, 0xCC, 0xFA, 0xFF], (machine [p, b]).Executes ∧
      (machine [p, b]).ReadsBytes 0x0100 [p, b] ∧ inRanges b unlistedXY) := by
  simp only [State.ReadsBytes]; unfold State.Executes inRanges; decide

theorem witness_UnlistedEncodingsAreRefused_indexBit :
    (∀ p ∈ [0xDD, 0xFD], ∀ b ∈ ([0x36, 0x00, 0xFF] : List Byte), (machine [p, 0xCB, 0x05, b]).Executes ∧
      (machine [p, 0xCB, 0x05, b]).ReadsBytes 0x0100 [p, 0xCB, 0x05, b] ∧ (b = 0x36 ∨ b.toNat % 8 ≠ 6)) := by
  simp only [State.ReadsBytes]; unfold State.Executes; decide

theorem witness_StepRunsDecodedInstruction :
    (machine [0x3E, 0x33]).Executes ∧ WellFormed (.ldRN .a 0x33) = true ∧
      (machine [0x3E, 0x33]).ReadsBytes (machine [0x3E, 0x33]).pc (encode (.ldRN .a 0x33)) ∧
      (machine [0x3E, 0x33]).rModel = .draw := by
  unfold State.Executes; refine ⟨by decide, by decide, ⟨by decide, by decide, trivial⟩, by decide⟩

/-- The machine counting opcode fetches. -/
def counting (s : State) : State := { s with rModel := .m1Count, r := 0xFF }

/-- An instruction with a prefix and one without; a non-maskable interrupt, a maskable one, an idle step. -/
theorem witness_RefreshRegisterCounts :
    (counting (machine [0xED, 0x44])).Executes ∧
      (counting (machine [0xED, 0x44])).ReadsBytes (machine []).pc (encode .neg) ∧
    (counting (machine [0x00])).Executes ∧ (counting (machine [0x00])).ReadsBytes (machine []).pc (encode .nop) ∧
    (∃ t, step (counting (withPins boundary nmiPins)) = .next t) ∧
    (∃ t, step (counting (withPins { boundary with iff1 := true, im := .im1 } (intPins 0xFF))) = .next t) ∧
    (∃ t, step (counting { boundary with halted := true }) = .next t) := by
  unfold State.Executes
  exact ⟨by decide, ⟨by decide, by decide, trivial⟩, by decide, ⟨by decide, trivial⟩, ⟨_, rfl⟩, ⟨_, rfl⟩, ⟨_, rfl⟩⟩

theorem witness_StepIsRefusedOnlyForTwoReasons :
    step (machine [0xED, 0x00]) = .refused (.unlistedEncoding (.unlisted .ed 0x00)) ∧
      step (withPins { boundary with iff1 := true, iff2 := true } (intPins 0xCD)) = .refused (.modeZeroSupplied 0xCD) :=
  ⟨rfl, rfl⟩

theorem witness_ResetStepRestoresResetState : (withPins boundary resetPins).sampledPins.reset = true := by decide

theorem witness_NonMaskableInterruptEntry :
    ((withPins boundary nmiPins).sampledPins.reset = false ∧ (withPins boundary nmiPins).sampledPins.nmiEdge = true ∧
      (withPins boundary nmiPins).rModel = .draw) ∧
    (State.sampledPins { boundary with nmiPending := true }).reset = false ∧
      ({ boundary with nmiPending := true } : State).nmiPending = true := by decide

/-- The hypotheses the three statements on accepting a maskable interrupt share, in a mode. -/
def accepts (s : State) (m : IntMode) : Bool :=
  s.sampledPins.reset == false && s.nmiPending == false && s.sampledPins.nmiEdge == false &&
    s.sampledPins.intLine == true && s.iff1 == true && s.eiDelay == false && s.im == m && s.rModel == .draw

theorem witness_MaskableInterruptModeOne :
    accepts (withPins { boundary with iff1 := true, im := .im1 } (intPins 0x00)) .im1 = true := by decide

theorem witness_MaskableInterruptModeTwo :
    accepts (withPins { boundary with iff1 := true, im := .im2, i := 0xFF } (intPins 0xFF)) .im2 = true := by decide

theorem witness_MaskableInterruptModeZero :
    accepts (withPins { boundary with iff1 := true } (intPins 0xFF)) .im0 = true ∧ (0xFF : Byte) &&& 0xC7 = 0xC7 ∧
      accepts (withPins { boundary with iff1 := true } (intPins 0x00)) .im0 = true ∧ (0x00 : Byte) &&& 0xC7 ≠ 0xC7 := by
  decide

/-- A halted machine with no request, and one with a request and interrupts disabled. -/
theorem witness_HaltedStepChangesNothing :
    ∀ s ∈ [withPins { boundary with halted := true, iff1 := true } Pins.quiet,
        withPins { boundary with halted := true } (intPins 0xFF)],
      s.sampledPins.reset = false ∧ s.nmiPending = false ∧ s.sampledPins.nmiEdge = false ∧
        (s.sampledPins.intLine = false ∨ s.iff1 = false) ∧ s.halted = true ∧ s.rModel = .draw := by decide

/-- EI pending with a maskable request active, before an instruction that is EI and before one that is not. -/
theorem witness_EiDelaysTheMaskableInterrupt :
    ∀ b ∈ [0xFB, 0x00], ∀ s ∈ [withPins { machine [b] with eiDelay := true, iff1 := true, iff2 := true } (intPins 0)],
      s.eiDelay = true ∧ s.halted = false ∧ s.sampledPins.reset = false ∧ s.nmiPending = false ∧
        s.sampledPins.nmiEdge = false ∧ s.sample.fetched = .ok (if b = 0xFB then .ei else .nop) := by decide

theorem witness_EiDelaysTheMaskableInterrupt_next :
    ∃ t, step (withPins { machine [0xFB] with eiDelay := true, iff1 := true, iff2 := true } (intPins 0)) = .next t :=
  ⟨_, rfl⟩

theorem witness_FlipFlopAndAlternateSetWriters : (∃ t, exec .di boundary = .next t) ∧ (∃ t, exec .ei boundary = .next t) ∧
    (∃ t, exec .retn boundary = .next t) ∧ ∃ t, exec .reti boundary = .next t := ⟨⟨_, rfl⟩, ⟨_, rfl⟩, ⟨_, rfl⟩, ⟨_, rfl⟩⟩

/-- An instruction, an interrupt and a reset. -/
theorem witness_StepTakesOneRecordOfInputs : (∃ t, step boundary = .next t) ∧
    (∃ t, step (withPins boundary nmiPins) = .next t) ∧ ∃ t, step (withPins boundary resetPins) = .next t :=
  ⟨⟨_, rfl⟩, ⟨_, rfl⟩, ⟨_, rfl⟩⟩

theorem witness_InvariantKeptByEveryStep :
    (withCell { boundary with iff1 := true, iff2 := true, eiDelay := true } 0x4000 0x11).Inv ∧
      ∃ t, step (withCell { boundary with iff1 := true, iff2 := true, eiDelay := true } 0x4000 0x11) = .next t := by
  refine ⟨?_, _, rfl⟩
  unfold State.Inv; decide

theorem witness_FlagWritersLeaveUnnamedBitsDrawn : ∃ t, exec (.addR .b) boundary = .next t := ⟨_, rfl⟩

theorem witness_StoreThenLoad : boundary.isRam 0xFFFF = true ∧ boundary.isRam (0xFFFF + 1) = true ∧
    boundary.isRam boundary.pc = true ∧ mapped.isRam 0x3FFF = false := by decide

/-- An address of each kind, and a store to ROM that runs. -/
theorem witness_MemoryMapBehaviour :
    mapped.kindAt 0x3FFF = .rom [(0x3FFF, 0xC9)] ∧ mapped.kindAt 0x8000 = .absent 0xFF ∧ mapped.kindAt 0xC000 = .device ∧
      mapped.isRam 0x0000 = false ∧ mapped.isDevice 0x0000 = false ∧ (∃ t, exec (.ldAtHlN 0x55) mapped = .next t) :=
  ⟨rfl, rfl, rfl, rfl, rfl, _, rfl⟩

theorem witness_PushThenPopGivesTheWordBack :
    boundary.isRam (boundary.sp - 1) = true ∧ boundary.isRam (boundary.sp - 2) = true ∧
      boundary.isRam (0x0001 - 2) = true := by decide

theorem witness_InterruptAndRefreshRegisterMoves :
    State.reset.rModel = .draw ∧ ({ State.reset with rModel := .m1Count } : State).rModel = .m1Count := by decide

/-- A row with H, and the last row at the lower ends of its ranges. -/
theorem witness_DecimalAdjust :
    (⟨false, false, 0x0, 0x9, true, 0x0, 0x3, 0x06, false⟩ : DaaRow) ∈ daaTable ∧
      DaaRow.fits ⟨false, false, 0x0, 0x9, true, 0x0, 0x3, 0x06, false⟩ 0x93 (flagsOf 0x10) ∧
      (⟨true, true, 0x6, 0xF, true, 0x6, 0xF, 0x9A, true⟩ : DaaRow) ∈ daaTable ∧
      DaaRow.fits ⟨true, true, 0x6, 0xF, true, 0x6, 0xF, 0x9A, true⟩ 0x66 (flagsOf 0x13) := by
  refine ⟨by decide, ?_, by decide, ?_⟩ <;> unfold DaaRow.fits <;> decide

theorem witness_Jumps : Cond.isRelative .nz = true ∧ Cond.isRelative .c = true := by decide

/-- Both values of the parameter, HL at RAM and at a device. -/
theorem witness_block_io : State.reset.blockIoFlags = .documented ∧
    ({ State.reset with blockIoFlags := .draw } : State).blockIoFlags = .draw ∧
    State.reset.isDevice State.reset.hl = false ∧ (State.reset.onWriteAt State.reset.hl).handed = false ∧
    mapped.isDevice 0xC000 = true ∧ (mapped.onWriteAt 0xC000).handed = true := by decide

theorem witness_bit_indices : (0 : Nat) < 8 ∧ (7 : Nat) < 8 := by decide

end Sys2Proof.Tests
end

/-! SUPPORT. What every step keeps of the inputs and the parameters, and why a step can be refused
(obligations O18 and O8). -/

namespace Sys2Proof.Machine

/-! ### What an operation makes of the inputs, the parameters and the counter of draws -/

/-- From `s` to `t` the inputs to come, the memory map and the two parameters stay, and `n` draws are made
(spec/00_scope.md rules R8, R13). An abbreviation, so that `simp` takes its five equations one by one. -/
@[simp] abbrev State.MakesDraws (s : State) (n : Nat) (t : State) : Prop :=
  t.pins = s.pins ∧ t.memMap = s.memMap ∧ t.rModel = s.rModel ∧ t.blockIoFlags = s.blockIoFlags ∧
    t.draws = s.draws + n

/-- `MakesDraws` for some number of draws: what every instruction and every handler entry does. -/
def State.KeepsInputs (s t : State) : Prop :=
  t.pins = s.pins ∧ t.memMap = s.memMap ∧ t.rModel = s.rModel ∧ t.blockIoFlags = s.blockIoFlags ∧
    s.draws ≤ t.draws

theorem State.MakesDraws.keepsInputs {s t : State} {n : Nat} (h : s.MakesDraws n t) : s.KeepsInputs t := by
  obtain ⟨hpins, hmap, hr, hio, hdraws⟩ := h
  exact ⟨hpins, hmap, hr, hio, by omega⟩

theorem State.MakesDraws.advance {s t : State} {n : Nat} (h : s.MakesDraws n t) (k : Word) :
    s.MakesDraws n (t.advance k) := h

/-! ### The operands -/

@[simp] theorem State.setPair_makesDraws (s : State) (p : RR) (v : Word) : s.MakesDraws 0 (s.setPair p v) := by
  cases p <;> simp [State.setPair]

@[simp] theorem State.setStackPair_makesDraws (s : State) (q : QQ) (v : Word) :
    s.MakesDraws 0 (s.setStackPair q v) := by
  cases q <;> simp [State.setStackPair]

@[simp] theorem State.advanceUnless_makesDraws (s : State) (again : Bool) :
    s.MakesDraws 0 (s.advanceUnless again) := by
  cases again <;> simp [State.advanceUnless]

@[simp] theorem State.afterReadR_makesDraws (s : State) :
    s.MakesDraws (if s.rModel = .draw then 1 else 0) s.afterReadR := by
  unfold State.afterReadR
  cases s.rModel <;> simp

/-! ### The operations of the instruction families -/

@[simp] theorem State.addToA_makesDraws (s : State) (v : Byte) (cin : Bool) : s.MakesDraws 2 (s.addToA v cin) := by
  simp [State.addToA]

@[simp] theorem State.subFromA_makesDraws (s : State) (v : Byte) (cin : Bool) :
    s.MakesDraws 2 (s.subFromA v cin) := by
  simp [State.subFromA]

@[simp] theorem State.compareA_makesDraws (s : State) (v : Byte) : s.MakesDraws 2 (s.compareA v) := by
  simp [State.compareA]

@[simp] theorem State.logicToA_makesDraws (s : State) (res : Byte) (h : Bool) : s.MakesDraws 2 (s.logicToA res h) := by
  simp [State.logicToA]

@[simp] theorem State.updateReg8_makesDraws (s : State) (r : R8) (p : Byte × Flags) :
    s.MakesDraws 2 (s.updateReg8 r p) := by
  simp [State.updateReg8]

@[simp] theorem State.updateByte_makesDraws (s : State) (a : Word) (p : Byte × Flags) :
    s.MakesDraws 2 (s.updateByte a p) := by
  simp [State.updateByte]

@[simp] theorem State.rotateA_makesDraws (s : State) (kind : RotKind) : s.MakesDraws 2 (s.rotateA kind) := by
  simp [State.rotateA]

@[simp] theorem State.testBit_makesDraws (s : State) (b : BitVec 3) (v : Byte) : s.MakesDraws 4 (s.testBit b v) := by
  simp [State.testBit]

@[simp] theorem State.withSum16_makesDraws (s : State) (p : Word × Flags) : s.MakesDraws 2 (s.withSum16 p) := by
  simp [State.withSum16]

@[simp] theorem State.loadBlock_makesDraws (s : State) (delta : Word) : s.MakesDraws 2 (s.loadBlock delta) := by
  simp [State.loadBlock]

@[simp] theorem State.compareBlock_makesDraws (s : State) (delta : Word) :
    s.MakesDraws 2 (s.compareBlock delta) := by
  simp [State.compareBlock]

@[simp] theorem State.setBlockIoFlags_makesDraws (s : State) : s.MakesDraws 7 s.setBlockIoFlags := by
  simp [State.setBlockIoFlags]

@[simp] theorem State.inputBlock_makesDraws (s : State) (delta : Word) : s.MakesDraws 7 (s.inputBlock delta) := by
  simp [State.inputBlock]

@[simp] theorem State.outputBlock_makesDraws (s : State) (delta : Word) : s.MakesDraws 7 (s.outputBlock delta) := by
  simp [State.outputBlock]

/-! ### Reset and the entries to the handlers -/

theorem State.cpuReset_makesDraws (s : State) : s.MakesDraws 19 s.cpuReset := by
  simp [State.cpuReset]

@[simp] theorem State.maskInt_makesDraws (s : State) : s.MakesDraws 0 s.maskInt := by
  simp [State.maskInt]

@[simp] theorem State.enterVector_makesDraws (s : State) (entry : Word) : s.MakesDraws 0 (s.enterVector entry) := by
  simp [State.enterVector]

theorem State.acceptNmi_makesDraws (s : State) : s.MakesDraws 0 s.acceptNmi := by
  simp [State.acceptNmi]

theorem State.idle_makesDraws (s : State) : s.MakesDraws 0 s.idle := by
  simp [State.idle]

theorem State.acceptInt_keepsInputs {s t : State} {bus : Byte} (h : s.acceptInt bus = .next t) :
    s.KeepsInputs t := by
  refine State.MakesDraws.keepsInputs (n := 0) ?_
  rcases acceptInt_next h with ⟨handler, rfl⟩ | rfl <;> simp

/-! ### Every instruction completes and keeps the inputs -/

/-- Every instruction answers a next state and keeps the inputs. Every meaning is a chain of the operations above. The
arms named are those whose meaning branches on the state, and the block forms that step down: there `simp` would
evaluate the step `-1`, which is costly for the kernel to follow. -/
theorem exec_next_keepsInputs (i : Instr) (s : State) : ∃ t, exec i s = .next t ∧ s.KeepsInputs t := by
  unfold State.KeepsInputs
  cases i with
  | jpCondNn | jrCondE | callCondNn | retCond | djnz => exact ⟨_, rfl, by split <;> simp⟩
  | ldd => exact ⟨_, rfl, ((s.loadBlock_makesDraws _).advance 2).keepsInputs⟩
  | cpd => exact ⟨_, rfl, ((s.compareBlock_makesDraws _).advance 2).keepsInputs⟩
  | ind => exact ⟨_, rfl, ((s.inputBlock_makesDraws _).advance 2).keepsInputs⟩
  | _ => exact ⟨_, rfl, by simp [Nat.add_assoc]⟩

theorem exec_keepsInputs {i : Instr} {s t : State} (h : exec i s = .next t) : s.KeepsInputs t := by
  obtain ⟨u, hu, hk⟩ := exec_next_keepsInputs i s
  cases hu.symm.trans h
  exact hk

theorem exec_ne_refused (i : Instr) (s : State) (r : Refusal) : exec i s ≠ .refused r := by
  obtain ⟨t, ht, -⟩ := exec_next_keepsInputs i s
  simp [ht]

/-! ### One step (rule R602) -/

/-- Taking the inputs of a step writes the inputs to come and `nmi_pending` only (rules R8, R617). -/
theorem State.sample_frame (s : State) : Frame { nmiPending := true, pins := true } s s.sample := by
  apply Frame.of_cells <;> simp [State.reg8]

/-- After its inputs are taken, a step that answers a next state takes no more of them and keeps the parameters. -/
theorem step_keepsInputs {s t : State} (h : step s = .next t) : s.sample.KeepsInputs t := by
  rcases step_next_cases h with ⟨-, rfl⟩ | ⟨-, rfl⟩ | ⟨-, hint⟩ | ⟨-, rfl⟩ | ⟨-, i, -, hexec⟩
  · exact s.sample.cpuReset_makesDraws.keepsInputs
  · exact s.sample.acceptNmi_makesDraws.keepsInputs
  · exact State.acceptInt_keepsInputs hint
  · exact s.sample.idle_makesDraws.keepsInputs
  · simpa [State.KeepsInputs] using exec_keepsInputs hexec

/-- Settles O18: the record of inputs is taken by `State.sample`, and no branch of the step touches the rest. -/
theorem stepTakesOneRecordOfInputs : Obligations.StepTakesOneRecordOfInputs := by
  refine ⟨fun s => ⟨s.sample_frame, rfl, rfl, rfl, ?_⟩, fun s t h => ?_⟩
  · simp
  · simpa [State.KeepsInputs] using step_keepsInputs h

end Sys2Proof.Machine

namespace Sys2Proof

/-! ### How many bytes decide an instruction (rules R121, R127) -/

/-- The bytes were enough: they are an instruction, or their opcode byte is not listed (rule R133). -/
def Decoded.Decided (d : Decoded) : Prop := d ≠ .error .truncated

@[simp] theorem decided_done (i : Instr) (rest : List Byte) : (done i rest).Decided := nofun

@[simp] theorem decided_unlisted (page : Page) (op : Byte) : Decoded.Decided (.error (.unlisted page op)) := nofun

@[simp] theorem decided_withByte (f : Byte → Instr) {rest : List Byte} (h : 1 ≤ rest.length) :
    (withByte f rest).Decided := by
  match rest, h with
  | _ :: _, _ => exact nofun

@[simp] theorem decided_withWord (f : Word → Instr) {rest : List Byte} (h : 2 ≤ rest.length) :
    (withWord f rest).Decided := by
  match rest, h with
  | _ :: _ :: _, _ => exact nofun

@[simp] theorem decided_withTwoBytes (f : Byte → Byte → Instr) {rest : List Byte} (h : 2 ≤ rest.length) :
    (withTwoBytes f rest).Decided := by
  match rest, h with
  | _ :: _ :: _, _ => exact nofun

theorem decided_ite {c : Prop} [Decidable c] {d e : Decoded} (hd : d.Decided) (he : e.Decided) :
    Decoded.Decided (if c then d else e) := by
  split <;> assumption

theorem decided_byR8 {onReg : R8 → Decoded} {onSix : Decoded} (v : BitVec 3) (hreg : ∀ r, (onReg r).Decided)
    (hsix : onSix.Decided) : (byR8 v onReg onSix).Decided := by
  unfold byR8
  cases R8.ofCode v with
  | some r => exact hreg r
  | none => exact hsix

theorem decided_rotPick {unlisted rlc rrc rl rr sla sra srl : Decoded} (y : BitVec 3) (h : unlisted.Decided)
    (hrlc : rlc.Decided) (hrrc : rrc.Decided) (hrl : rl.Decided) (hrr : rr.Decided) (hsla : sla.Decided)
    (hsra : sra.Decided) (hsrl : srl.Decided) : (rotPick y unlisted rlc rrc rl rr sla sra srl).Decided := by
  unfold rotPick
  split <;> assumption

/-! ### The pages: each needs as many bytes after the opcode byte as its longest entry has -/

theorem decided_decodeCB (op : Byte) (rest : List Byte) : (decodeCB op rest).Decided := by
  unfold decodeCB
  split <;> refine decided_byR8 _ (fun r => ?_) ?_ <;> simp [decided_rotPick]

theorem decided_decodeIndexBit (xy : XY) (d op : Byte) (rest : List Byte) :
    (decodeIndexBit xy d op rest).Decided := by
  unfold decodeIndexBit
  split <;> simp [decided_rotPick]

theorem decided_decodeED (op : Byte) {rest : List Byte} (h : 2 ≤ rest.length) : (decodeED op rest).Decided := by
  unfold decodeED
  split <;> simp [decided_byR8, decided_ite, h]

theorem decided_decodeIndex (xy : XY) (op : Byte) {rest : List Byte} (h : 2 ≤ rest.length) :
    (decodeIndex xy op rest).Decided := by
  have h1 : 1 ≤ rest.length := by omega
  unfold decodeIndex
  split <;> simp [decided_byR8, decided_ite, h, h1]

theorem decided_decodeMain0 (op : Byte) {rest : List Byte} (h : 2 ≤ rest.length) : (decodeMain0 op rest).Decided := by
  have h1 : 1 ≤ rest.length := by omega
  unfold decodeMain0
  split <;> simp [decided_byR8, decided_ite, h, h1]

theorem decided_decodeMain1 (op : Byte) (rest : List Byte) : (decodeMain1 op rest).Decided := by
  unfold decodeMain1
  refine decided_byR8 _ (fun r => ?_) ?_ <;> simp [decided_byR8]

theorem decided_decodeMain2 (op : Byte) (rest : List Byte) : (decodeMain2 op rest).Decided := by
  unfold decodeMain2
  simp [decided_byR8]

theorem decided_decodeAfterXY (xy : XY) {rest : List Byte} (h : 3 ≤ rest.length) :
    (decodeAfterXY xy rest).Decided := by
  match rest, h with
  | op :: d :: op' :: rest, _ =>
    exact decided_ite (decided_decodeIndexBit xy d op' rest) (decided_decodeIndex xy op (by simp))

theorem decided_decodeAfter_decodeCB {rest : List Byte} (h : 1 ≤ rest.length) :
    (decodeAfter decodeCB rest).Decided := by
  match rest, h with
  | op :: rest, _ => exact decided_decodeCB op rest

theorem decided_decodeAfter_decodeED {rest : List Byte} (h : 3 ≤ rest.length) :
    (decodeAfter decodeED rest).Decided := by
  match rest, h with
  | op :: _ :: _ :: _, _ => exact decided_decodeED op (by simp)

theorem decided_decodeMain3 (op : Byte) {rest : List Byte} (h : 3 ≤ rest.length) : (decodeMain3 op rest).Decided := by
  have h1 : 1 ≤ rest.length := by omega
  have h2 : 2 ≤ rest.length := by omega
  unfold decodeMain3
  split <;> simp [decided_decodeAfter_decodeCB, decided_decodeAfter_decodeED, decided_decodeAfterXY, h, h1, h2]

theorem decided_decodeMain (op : Byte) {rest : List Byte} (h : 3 ≤ rest.length) : (decodeMain op rest).Decided := by
  unfold decodeMain
  split
  · exact decided_decodeMain0 op (by omega)
  · exact decided_decodeMain1 op rest
  · exact decided_decodeMain2 op rest
  · exact decided_decodeMain3 op h

/-- Four bytes decide every instruction (rule R138). -/
theorem decided_decode {bs : List Byte} (h : 4 ≤ bs.length) : (decode bs).Decided := by
  match bs, h with
  | op :: rest, h => exact decided_decodeMain op (by simpa using h)

end Sys2Proof

namespace Sys2Proof.Machine

/-! ### The fetch is never left with too few bytes (rules R89, R127) -/

/-- A fetch that may read four bytes in all, those read already not deciding it, ends at an instruction or at an
unlisted encoding. -/
theorem State.fetchMore_error : ∀ (n : Nat) (got : List Byte) (s : State) {why : DecodeError},
    got.length + n = 4 → decode got = .error .truncated → (State.fetchMore n got s).2 = .error why →
    ∃ page op, why = .unlisted page op
  | 0, _, _, _, hlen, hgot, _ => absurd hgot (decided_decode (by omega))
  | n + 1, got, s, why, hlen, _, h => by
    unfold State.fetchMore at h
    simp only at h
    split at h
    · cases h
    · exact ⟨_, _, (Except.error.inj h).symm⟩
    · exact State.fetchMore_error n _ _ (by simp; omega) ‹_› h

theorem State.fetched_error {s : State} {why : DecodeError} (h : s.fetched = .error why) :
    ∃ page op, why = .unlisted page op :=
  State.fetchMore_error 4 [] s rfl rfl h

/-! ### What a step can be refused for (rule R14) -/

/-- The acceptance of a maskable interrupt is refused in mode 0 only (rule R606). -/
theorem acceptInt_refused {s : State} {bus : Byte} {r : Refusal} (h : s.acceptInt bus = .refused r) :
    r = .modeZeroSupplied bus ∧ s.im = .im0 := by
  unfold State.acceptInt at h
  split at h
  · split at h
    · cases h
    · exact ⟨(Host.Outcome.refused.inj h).symm, ‹_›⟩
  · cases h
  · cases h

/-- Every refusal of a step is that of an interrupt, that of the bytes fetched, or the instruction's. -/
theorem step_refused_cases {s : State} {r : Refusal} (h : step s = .refused r) :
    s.sample.acceptInt s.sampledPins.intBus = .refused r ∨
    (∃ why, s.sample.fetched = .error why ∧ r = .unlistedEncoding why) ∨
    ∃ i, exec i (s.sample.beginInstr i) = .refused r := by
  unfold step at h
  split at h
  · cases h
  split at h
  · cases h
  split at h
  · exact .inl h
  split at h
  · cases h
  split at h
  · exact .inr (.inr ⟨_, h⟩)
  · exact .inr (.inl ⟨_, ‹_›, (Host.Outcome.refused.inj h).symm⟩)

/-- Settles O8: four bytes always decide the fetch, and no instruction is refused. -/
theorem stepIsRefusedOnlyForTwoReasons : Obligations.StepIsRefusedOnlyForTwoReasons := by
  intro s r h
  rcases step_refused_cases h with hint | ⟨why, hfetch, rfl⟩ | ⟨i, hexec⟩
  · obtain ⟨hr, him⟩ := acceptInt_refused hint
    exact .inr ⟨_, hr, him⟩
  · obtain ⟨page, op, rfl⟩ := State.fetched_error hfetch
    exact .inl ⟨page, op, rfl⟩
  · exact absurd hexec (exec_ne_refused _ _ _)

end Sys2Proof.Machine

/-! SUPPORT. The decoder and the encoder agree, so a step runs the instruction whose bytes stand at pc; what each kind
of step counts in R (obligation O6); the conditions as bits of F (obligation O54). -/

namespace Sys2Proof

/-! ### More bytes do not change what some bytes decide (rules R121, R127) -/

/-- What is decided of some bytes, `tail` coming after them: the instruction, or the refusal, is the same. -/
def Decoded.followedBy (tail : List Byte) (d : Decoded) : Decoded := d.map fun p => (p.1, p.2 ++ tail)

/-- Where the shorter bytes decide (`d`), the longer ones (`e`) decide the same. -/
def Decoded.KeptBy (tail : List Byte) (d e : Decoded) : Prop := d = .error .truncated ∨ e = d.followedBy tail

@[simp] theorem keptBy_error (tail : List Byte) (why : DecodeError) :
    Decoded.KeptBy tail (.error why) (.error why) := .inr rfl

@[simp] theorem keptBy_truncated (tail : List Byte) (e : Decoded) :
    Decoded.KeptBy tail (.error .truncated) e := .inl rfl

@[simp] theorem keptBy_done (tail : List Byte) (i : Instr) (rest : List Byte) :
    Decoded.KeptBy tail (done i rest) (done i (rest ++ tail)) := .inr rfl

@[simp] theorem keptBy_withByte (tail : List Byte) (f : Byte → Instr) (rest : List Byte) :
    Decoded.KeptBy tail (withByte f rest) (withByte f (rest ++ tail)) := by
  cases rest with
  | nil => exact .inl rfl
  | cons => exact .inr rfl

@[simp] theorem keptBy_withWord (tail : List Byte) (f : Word → Instr) (rest : List Byte) :
    Decoded.KeptBy tail (withWord f rest) (withWord f (rest ++ tail)) := by
  match rest with
  | [] | [_] => exact .inl rfl
  | _ :: _ :: _ => exact .inr rfl

@[simp] theorem keptBy_withTwoBytes (tail : List Byte) (f : Byte → Byte → Instr) (rest : List Byte) :
    Decoded.KeptBy tail (withTwoBytes f rest) (withTwoBytes f (rest ++ tail)) := by
  match rest with
  | [] | [_] => exact .inl rfl
  | _ :: _ :: _ => exact .inr rfl

theorem keptBy_ite {tail : List Byte} {c : Prop} [Decidable c] {d d' e e' : Decoded} (hd : d.KeptBy tail d')
    (he : e.KeptBy tail e') : Decoded.KeptBy tail (if c then d else e) (if c then d' else e') := by
  split <;> assumption

theorem keptBy_byR8 {tail : List Byte} {onReg onReg' : R8 → Decoded} {onSix onSix' : Decoded} (v : BitVec 3)
    (hreg : ∀ r, (onReg r).KeptBy tail (onReg' r)) (hsix : onSix.KeptBy tail onSix') :
    (byR8 v onReg onSix).KeptBy tail (byR8 v onReg' onSix') := by
  unfold byR8
  cases R8.ofCode v with
  | some r => exact hreg r
  | none => exact hsix

/-! Each page reads as many of the bytes after the opcode byte as its entry needs, and passes on the rest. -/

theorem keptBy_decodeCB (tail : List Byte) (op : Byte) (rest : List Byte) :
    (decodeCB op rest).KeptBy tail (decodeCB op (rest ++ tail)) := by
  simp only [decodeCB, rotPick]
  generalize (opX op).toNat = x, (opY op).toNat = y
  split
  · refine keptBy_byR8 _ (fun r => ?_) ?_ <;> split <;> simp
  all_goals simp [keptBy_byR8]

theorem keptBy_decodeIndexBit (tail : List Byte) (xy : XY) (d op : Byte) (rest : List Byte) :
    (decodeIndexBit xy d op rest).KeptBy tail (decodeIndexBit xy d op (rest ++ tail)) := by
  simp only [decodeIndexBit, rotPick]
  generalize (opX op).toNat = x, (opZ op).toNat = z, (opY op).toNat = y
  split
  · split <;> simp
  all_goals simp

theorem keptBy_decodeED (tail : List Byte) (op : Byte) (rest : List Byte) :
    (decodeED op rest).KeptBy tail (decodeED op (rest ++ tail)) := by
  unfold decodeED
  generalize (opX op).toNat = x, (opZ op).toNat = z, (opY op).toNat = y
  split <;> simp [keptBy_byR8, keptBy_ite]

theorem keptBy_decodeIndex (tail : List Byte) (xy : XY) (op : Byte) (rest : List Byte) :
    (decodeIndex xy op rest).KeptBy tail (decodeIndex xy op (rest ++ tail)) := by
  unfold decodeIndex
  generalize (opX op).toNat = x, (opY op).toNat = y, (opZ op).toNat = z
  split <;> simp [keptBy_byR8, keptBy_ite]

theorem keptBy_decodeMain0 (tail : List Byte) (op : Byte) (rest : List Byte) :
    (decodeMain0 op rest).KeptBy tail (decodeMain0 op (rest ++ tail)) := by
  unfold decodeMain0
  generalize (opZ op).toNat = z, (opY op).toNat = y
  split <;> simp [keptBy_byR8, keptBy_ite]

theorem keptBy_decodeMain1 (tail : List Byte) (op : Byte) (rest : List Byte) :
    (decodeMain1 op rest).KeptBy tail (decodeMain1 op (rest ++ tail)) := by
  unfold decodeMain1
  simp [keptBy_byR8]

theorem keptBy_decodeMain2 (tail : List Byte) (op : Byte) (rest : List Byte) :
    (decodeMain2 op rest).KeptBy tail (decodeMain2 op (rest ++ tail)) := by
  unfold decodeMain2
  simp [keptBy_byR8]

theorem keptBy_decodeAfterXY (tail : List Byte) (xy : XY) (rest : List Byte) :
    (decodeAfterXY xy rest).KeptBy tail (decodeAfterXY xy (rest ++ tail)) := by
  match rest with
  | [] => exact .inl rfl
  | [op] => exact keptBy_ite (.inl rfl) (keptBy_decodeIndex tail xy op [])
  | [op, d] => exact keptBy_ite (.inl rfl) (keptBy_decodeIndex tail xy op [d])
  | op :: d :: op' :: rest =>
    exact keptBy_ite (keptBy_decodeIndexBit tail xy d op' rest) (keptBy_decodeIndex tail xy op _)

theorem keptBy_decodeAfter {tail : List Byte} {page : Byte → List Byte → Decoded}
    (h : ∀ op rest, (page op rest).KeptBy tail (page op (rest ++ tail))) (rest : List Byte) :
    (decodeAfter page rest).KeptBy tail (decodeAfter page (rest ++ tail)) := by
  cases rest with
  | nil => exact .inl rfl
  | cons op rest => exact h op rest

theorem keptBy_decodeMain3 (tail : List Byte) (op : Byte) (rest : List Byte) :
    (decodeMain3 op rest).KeptBy tail (decodeMain3 op (rest ++ tail)) := by
  unfold decodeMain3
  generalize (opZ op).toNat = z, (opY op).toNat = y
  split <;> simp [keptBy_decodeAfter, keptBy_decodeCB, keptBy_decodeED, keptBy_decodeAfterXY]

theorem keptBy_decodeMain (tail : List Byte) (op : Byte) (rest : List Byte) :
    (decodeMain op rest).KeptBy tail (decodeMain op (rest ++ tail)) := by
  unfold decodeMain
  generalize (opX op).toNat = x
  split
  · exact keptBy_decodeMain0 tail op rest
  · exact keptBy_decodeMain1 tail op rest
  · exact keptBy_decodeMain2 tail op rest
  · exact keptBy_decodeMain3 tail op rest

/-- Bytes that are decided stay so, whatever follows them. -/
theorem keptBy_decode (tail bs : List Byte) : (decode bs).KeptBy tail (decode (bs ++ tail)) := by
  cases bs with
  | nil => exact .inl rfl
  | cons op rest => exact keptBy_decodeMain tail op rest

/-- Bytes that are all of them an instruction have no shorter beginning that is decided. -/
theorem decode_take_of_decode {bs : List Byte} {i : Instr} (h : decode bs = .ok (i, [])) {k : Nat}
    (hk : k < bs.length) : decode (bs.take k) = .error .truncated := by
  rcases keptBy_decode (bs.drop k) (bs.take k) with htrunc | hsame
  · exact htrunc
  · rw [List.take_append_drop, h] at hsame
    cases hd : decode (bs.take k) with
    | error why => rw [hd] at hsame; cases hsame
    | ok p =>
      rw [hd] at hsame
      have hnil : [] = p.2 ++ bs.drop k := congrArg Prod.snd (Except.ok.inj hsame)
      have hdrop : bs.drop k = [] := (List.append_eq_nil_iff.mp hnil.symm).2
      exact absurd (List.drop_eq_nil_iff.mp hdrop) (by omega)

/-! ### The fields of an opcode byte read back (rules R122, R123) -/

@[simp] theorem opX_opByte (x : BitVec 2) (y z : BitVec 3) : opX (opByte x y z) = x := by
  revert x y z; decide

@[simp] theorem opY_opByte (x : BitVec 2) (y z : BitVec 3) : opY (opByte x y z) = y := by
  revert x y z; decide

@[simp] theorem opZ_opByte (x : BitVec 2) (y z : BitVec 3) : opZ (opByte x y z) = z := by
  revert x y z; decide

@[simp] theorem byR8_code (r : R8) (onReg : R8 → Decoded) (onSix : Decoded) : byR8 r.code onReg onSix = onReg r := by
  cases r <;> rfl

@[simp] theorem byR8_six (onReg : R8 → Decoded) (onSix : Decoded) : byR8 6#3 onReg onSix = onSix := rfl

@[simp] theorem withWord_loByte_hiByte (f : Word → Instr) (nn : Word) (rest : List Byte) :
    withWord f (loByte nn :: hiByte nn :: rest) = .ok (f nn, rest) := by
  simp [withWord]

/-- The eight restart targets are those of the field (rule R514). -/
theorem restartTarget_restartField {p : Word} (h : isRestartTarget p = true) : restartTarget (restartField p) = p := by
  have hmask : p &&& 0x0038#16 = p := by simpa [isRestartTarget] using h
  have hfield : restartTarget (restartField p) = p &&& 0x0038#16 := by
    apply BitVec.eq_of_getLsbD_eq
    intro k hk
    change ((0#10 ++ restartField p) ++ 0#3).getLsbD k = _
    rw [BitVec.getLsbD_append, BitVec.getLsbD_append]
    interval_cases k <;> simp [restartField]
  rw [hfield, hmask]

/-- Decoding the encoding of an instruction gives it back and leaves the bytes after it. A register, pair or condition
field is decoded value by value; a bit number and a restart target go through the fields of the opcode byte. -/
theorem decode_encode {i : Instr} (h : WellFormed i = true) (rest : List Byte) :
    decode (encode i ++ rest) = .ok (i, rest) := by
  cases i with
  | ldRR r s => cases r <;> cases s <;> rfl
  | ldRN r | ldRAtHl r | ldAtHlR r | ldRAtIxd r | ldRAtIyd r | ldAtIxdR _ r | ldAtIydR _ r | adcR r | addR r | andR r
  | cpR r | orR r | sbcR r | subR r | xorR r | incR r | decR r | rlR r | rlcR r | rrR r | rrcR r | slaR r | sraR r
  | srlR r | inRC r | outCR r => cases r <;> rfl
  | pushPair q | popPair q => cases q <;> rfl
  | adcHlPair p | addHlPair p | addIxPair p | addIyPair p | sbcHlPair p | incPair p | decPair p => cases p <;> rfl
  | retCond cc => cases cc <;> rfl
  | jrCondE cc =>
    cases cc with
    | nz | z | nc | c => rfl
    | po | pe | p | m => cases h
  | ldPairNn p nn | ldPairAtNn p nn => cases p <;> exact withWord_loByte_hiByte _ nn rest
  | ldAtNnPair nn p => cases p <;> exact withWord_loByte_hiByte (.ldAtNnPair · _) nn rest
  | jpCondNn cc nn | callCondNn cc nn => cases cc <;> exact withWord_loByte_hiByte _ nn rest
  | ldAAtNn nn | ldAtNnA nn | ldIxNn nn | ldIyNn nn | ldHlAtNn nn | ldIxAtNn nn | ldIyAtNn nn | ldAtNnHl nn
  | ldAtNnIx nn | ldAtNnIy nn | jpNn nn | callNn nn => exact withWord_loByte_hiByte _ nn rest
  | bitR | resR | setR | bitAtHl | resAtHl | setAtHl =>
    change decodeCB _ rest = _
    simp [decodeCB, done]
  | bitAtIxd _ d | resAtIxd _ d | setAtIxd _ d =>
    change decodeIndexBit .ix d _ rest = _
    simp [decodeIndexBit, done, XY.pick]
  | bitAtIyd _ d | resAtIyd _ d | setAtIyd _ d =>
    change decodeIndexBit .iy d _ rest = _
    simp [decodeIndexBit, done, XY.pick]
  | rst p =>
    change decodeMain (opByte 3 (restartField p) 7) rest = _
    simp [decodeMain, decodeMain3, done, restartTarget_restartField h]
  | _ => rfl

end Sys2Proof

namespace Sys2Proof.Machine

/-! ### A step fetches the instruction whose bytes stand at pc (rules R89, R127) -/

/-- A read and the taking of the inputs do not disturb each other (rules R8, R87). -/
theorem State.sample_afterRead (s : State) (a : Word) : s.sample.afterRead a = (s.afterRead a).sample := by
  have hdev : s.sample.isDevice a = s.isDevice a := s.sample_isDevice a
  unfold State.afterRead
  rw [hdev]
  split <;> rfl

theorem State.ReadsBytes.sample : ∀ {bs : List Byte} {s : State} {a : Word}, s.ReadsBytes a bs →
    s.sample.ReadsBytes a bs
  | [], _, _, _ => trivial
  | _ :: _, s, a, ⟨hbyte, hrest⟩ => ⟨by simpa using hbyte, by rw [State.sample_afterRead]; exact hrest.sample⟩

theorem encode_length (i : Instr) : Laws.EncodedLength.Statement i := by
  cases i <;> exact Laws.encodedLength_of rfl

/-- Where the bytes of an instruction stand at pc, a fetch reads each of them once and answers the instruction. -/
theorem State.fetch_of_encode {s : State} {i : Instr} (hwf : WellFormed i = true)
    (hbytes : s.ReadsBytes s.pc (encode i)) : s.fetch = (s.accesses (byteReads s.pc (encode i).length), .ok i) := by
  obtain ⟨hpos, hfour⟩ := encode_length i
  have hdecode : decode (encode i) = .ok (i, []) := by simpa using decode_encode hwf []
  exact State.fetch_of_reads (fin := .ok i) (by simp) (List.ne_nil_of_length_pos hpos) hfour hbytes
    (fun k _ hk => decode_take_of_decode hdecode hk) (by rw [hdecode]; rfl)

/-- A step that begins with the bytes of an instruction runs it (rule R602). -/
theorem step_of_encode {s : State} {i : Instr} (hexec : s.Executes) (hwf : WellFormed i = true)
    (hbytes : s.ReadsBytes s.pc (encode i)) : step s = exec i (s.sample.beginInstr i) := by
  have hfetch : s.sample.fetched = .ok i := by
    rw [State.fetched, State.fetch_of_encode hwf (by simpa using hbytes.sample)]
  rw [step_of_executes hexec, hfetch]

/-! ### The steps that begin with no instruction (rules R602, R610) -/

theorem step_eq_acceptNmi {s : State} (hreset : s.sampledPins.reset = false) (hnmi : s.sample.nmiPending = true) :
    step s = .next s.sample.acceptNmi := by
  unfold step
  simp only [hreset, hnmi, Bool.false_eq_true, if_false, if_true]

theorem step_eq_acceptInt {s : State} (hreset : s.sampledPins.reset = false) (hnmi : s.sample.nmiPending = false)
    (hint : s.sample.takesInt s.sampledPins = true) : step s = s.sample.acceptInt s.sampledPins.intBus := by
  unfold step
  simp only [hreset, hnmi, hint, Bool.false_eq_true, if_false, if_true]

theorem step_eq_idle {s : State} (hreset : s.sampledPins.reset = false) (hnmi : s.sample.nmiPending = false)
    (hint : s.sample.takesInt s.sampledPins = false) (hhalted : s.halted = true) : step s = .next s.sample.idle := by
  unfold step
  simp only [hreset, hnmi, hint, State.sample_halted, hhalted, Bool.false_eq_true, if_false, if_true]

theorem State.sample_takesInt_iff (s : State) :
    s.sample.takesInt s.sampledPins = true ↔ s.sampledPins.intLine = true ∧ s.iff1 = true ∧ s.eiDelay = false := by
  simp [State.takesInt, and_assoc]

/-! ### R under `R_MODEL = m1_count` (spec/93_implementation_defined.md U5, log entry 6) -/

/-- `n` added to the low seven bits of a byte, bit 7 kept. -/
def addLow7 (r n : Byte) : Byte := (r &&& 0x80) ||| ((r + n) &&& 0x7F)

theorem addLow7_div (r n : Byte) : (addLow7 r n).toNat / 128 = r.toNat / 128 := by
  have hbit : r.toNat / 128 < 2 := by have := r.isLt; omega
  calc (addLow7 r n).toNat / 2 ^ 7
      = (r.toNat / 2 ^ 7) &&& 1 := by
        rw [addLow7, BitVec.toNat_or, BitVec.toNat_and, BitVec.toNat_and, Nat.or_div_two_pow, Nat.and_div_two_pow,
          Nat.and_div_two_pow]
        simp
    _ = r.toNat / 128 := by rw [Nat.and_one_is_mod]; omega

theorem addLow7_mod (r n : Byte) : (addLow7 r n).toNat % 128 = (r.toNat + n.toNat) % 128 := by
  calc (addLow7 r n).toNat % 2 ^ 7
      = (r + n).toNat % 2 ^ 7 &&& (2 ^ 7 - 1) := by
        rw [addLow7, BitVec.toNat_or, BitVec.toNat_and, BitVec.toNat_and, Nat.or_mod_two_pow, Nat.and_mod_two_pow,
          Nat.and_mod_two_pow]
        simp
    _ = (r.toNat + n.toNat) % 128 := by rw [Nat.and_two_pow_sub_one_eq_mod, BitVec.toNat_add]; omega

theorem State.countFetches_r {s : State} (h : s.rModel = .m1Count) (n : Byte) :
    (s.countFetches n).r = addLow7 s.r n := by
  simp [State.countFetches, h, addLow7]

theorem RefreshCounted.of_addLow7 {s t : State} {n : Byte} (h : t.r = addLow7 s.r n) : RefreshCounted s t n.toNat := by
  rw [RefreshCounted, h]
  exact ⟨addLow7_div s.r n, addLow7_mod s.r n⟩

theorem State.beginInstr_r {s : State} (h : s.rModel = .m1Count) (i : Instr) :
    (s.beginInstr i).r = addLow7 s.r (opcodeFetches i) := by
  simp [State.beginInstr, State.countFetches_r, h]

theorem State.idle_r {s : State} (h : s.rModel = .m1Count) : s.idle.r = addLow7 s.r 1 := State.countFetches_r h 1

theorem State.acceptNmi_r {s : State} (h : s.rModel = .m1Count) : s.acceptNmi.r = addLow7 s.r 1 := by
  rw [State.acceptNmi, State.enterHandler_r]
  exact State.countFetches_r (by simpa using h) 1

theorem State.maskInt_r {s : State} (h : s.rModel = .m1Count) : s.maskInt.r = addLow7 s.r 1 := by
  rw [State.maskInt]
  exact State.countFetches_r (by simpa using h) 1

@[simp] theorem State.enterVector_r (s : State) (entry : Word) : (s.enterVector entry).r = s.r := by
  simp [State.enterVector]

theorem State.acceptInt_r {s t : State} {bus : Byte} (h : s.rModel = .m1Count) (hint : s.acceptInt bus = .next t) :
    t.r = addLow7 s.r 1 := by
  rcases acceptInt_next hint with ⟨handler, rfl⟩ | rfl <;> simp [State.maskInt_r h]

theorem startsWithPrefix_iff (bs : List Byte) :
    startsWithPrefix bs = true ↔ bs.head? ∈ [some 0xCB, some 0xED, some 0xDD, some 0xFD] := by
  cases bs <;> simp [startsWithPrefix, isPrefixByte, or_assoc]

theorem opcodeFetches_toNat (i : Instr) :
    (opcodeFetches i).toNat =
      if (encode i).head? ∈ [some 0xCB, some 0xED, some 0xDD, some 0xFD] then 2 else 1 := by
  simp only [opcodeFetches, startsWithPrefix_iff]
  split <;> rfl

/-- A step with no reset that accepts an interrupt or is idle leaves R counted up by one. -/
theorem step_r_of_no_instruction {s t : State} (hmodel : s.rModel = .m1Count) (hreset : s.sampledPins.reset = false)
    (hstep : step s = .next t)
    (hwhy : s.sample.nmiPending = true ∨ s.sample.takesInt s.sampledPins = true ∨ s.halted = true) :
    t.r = addLow7 s.r 1 := by
  cases hnmi : s.sample.nmiPending with
  | true =>
    rw [step_eq_acceptNmi hreset hnmi] at hstep
    cases hstep
    exact State.acceptNmi_r (s := s.sample) hmodel
  | false =>
    cases hint : s.sample.takesInt s.sampledPins with
    | true =>
      rw [step_eq_acceptInt hreset hnmi hint] at hstep
      exact State.acceptInt_r (s := s.sample) hmodel hstep
    | false =>
      rw [hnmi, hint] at hwhy
      have hhalted : s.halted = true := by simpa only [Bool.false_eq_true, false_or] using hwhy
      rw [step_eq_idle hreset hnmi hint hhalted] at hstep
      cases hstep
      exact State.idle_r (s := s.sample) hmodel

/-- Settles O6: the fetched instruction is the one encoded at pc, and every kind of step but a reset counts in R by
`countFetches`. -/
theorem refreshRegisterCounts : Obligations.RefreshRegisterCounts := by
  intro s hmodel
  refine ⟨fun i hexec hwf hbytes => ⟨_, step_of_encode hexec hwf hbytes, ?_⟩, fun t hreset hstep hwhy => ?_⟩
  · rw [← opcodeFetches_toNat]
    exact RefreshCounted.of_addLow7 (State.beginInstr_r (s := s.sample) hmodel i)
  · refine RefreshCounted.of_addLow7 (n := 1) (step_r_of_no_instruction hmodel hreset hstep ?_)
    simpa [State.sample_takesInt_iff, or_assoc] using hwhy

/-! ### The conditions (rule R40) -/

/-- The four flags the conditions test, as bits of F (rule R37). -/
theorem State.flags_bits (s : State) :
    s.flags.z = s.main.f.getLsbD 6 ∧ s.flags.c = s.main.f.getLsbD 0 ∧ s.flags.pv = s.main.f.getLsbD 2 ∧
      s.flags.s = s.main.f.getLsbD 7 := ⟨rfl, rfl, rfl, rfl⟩

/-- Settles O54: each condition tests one named flag, which is a bit of F; the codes are those of table `cc`. -/
theorem conditionCodes : Obligations.ConditionCodes := by
  intro s
  obtain ⟨hz, hc, hpv, hs⟩ := s.flags_bits
  simp [State.cond, hz, hc, hpv, hs, Cond.code]

end Sys2Proof.Machine


/-! SUPPORT. A push and a pop, and the word that comes back (obligation O23); what each kind of address reads, and that
no instruction changes a cell the map does not let it write (obligation O24). -/

namespace Sys2Proof.Machine

/-! ### A push and the pop after it (rule R95) -/

theorem State.push16_frame (s : State) (w : Word) :
    Frame { sp := true, mem := stackCells s, bus := pushWrites s.sp w } s (s.push16 w) := by
  apply Frame.of_cells
  case hcell =>
    intro x hx
    obtain ⟨hhi, hlo⟩ : x ≠ s.sp - 1 ∧ x ≠ s.sp - 2 := by simpa [stackCells] using hx
    exact State.cell_push16_other w hhi hlo
  case htrace => exact s.push16_ioTrace_eq w
  all_goals simp [State.reg8]

theorem State.push16_pushed (s : State) (w : Word) : Pushed s (s.push16 w) w :=
  Pushed.of_push16 (s.push16_sp w) (fun _ => rfl)

theorem State.afterPop_frame (s : State) : Frame { sp := true, bus := wordReads s.sp } s s.afterPop := by
  apply Frame.of_cells
  case htrace => rfl
  all_goals simp [State.reg8]

/-- Both cells of the stack word are RAM, so no device sees the read of the first and both answer what the push left. -/
theorem State.popped_push16 {s : State} (w : Word) (hhi : s.isRam (s.sp - 1) = true)
    (hlo : s.isRam (s.sp - 2) = true) : (s.push16 w).popped = w := by
  have hnext : s.sp - 2 + 1 = s.sp - 1 := by bv_omega
  have hdev : (s.push16 w).isDevice (s.sp - 2) = false := by simpa using State.isDevice_of_isRam hlo
  obtain ⟨hsp, hreadHi, hreadLo⟩ := s.push16_pushed w
  rw [State.popped, hsp, State.readWord, State.afterRead_eq hdev, hnext, hreadHi hhi, hreadLo hlo, ← hiByte_eq_ofNat,
    ← loByte_eq_ofNat, wordOf_hiByte_loByte]

/-- Settles O23: `push16` and `afterPop` are their stores and reads with SP moved, and RAM gives both bytes back. -/
theorem pushThenPopGivesTheWordBack : Obligations.PushThenPopGivesTheWordBack := by
  intro s w
  refine ⟨s.push16_pushed w, s.push16_frame w, s.push16_pc w, HoldsWord.of_readWord s s.sp, s.afterPop_sp,
    s.afterPop_frame, fun hhi hlo => ⟨State.popped_push16 w hhi hlo, ?_⟩⟩
  rw [State.afterPop_sp, State.push16_sp, BitVec.sub_add_cancel]

/-! ### What a read of each kind of address gives (rule R80, D21) -/

theorem State.readByte_of_rom {s : State} {a : Word} {contents : List Host.Cell} (h : s.kindAt a = .rom contents) :
    s.readByte a = Memory.read contents a.toNat := by
  simp [State.readByte, h]

theorem State.readByte_of_absent {s : State} {a : Word} {b : Byte} (h : s.kindAt a = .absent b) :
    s.readByte a = b := by
  simp [State.readByte, h]

theorem State.readByte_of_device {s : State} {a : Word} (h : s.kindAt a = .device) :
    s.readByte a = Config.deviceByte a s.ioTrace := by
  simp [State.readByte, h]

/-- An address that reads its cell and still is no RAM takes no write. -/
theorem State.not_kept_of_not_isRam {s : State} {x : Word} (hkind : s.kindAt x = .ram) (h : s.isRam x = false) :
    (s.onWriteAt x).kept = false := by
  simpa [State.isRam, hkind] using h

/-! ### The operations that store nothing leave the cells -/

@[simp] theorem State.setPair_cell (s : State) (p : RR) (v x : Word) : (s.setPair p v).cell x = s.cell x := by
  cases p <;> rfl

@[simp] theorem State.setStackPair_cell (s : State) (q : QQ) (v x : Word) :
    (s.setStackPair q v).cell x = s.cell x := by
  cases q <;> rfl

@[simp] theorem State.advanceUnless_cell (s : State) (again : Bool) (x : Word) :
    (s.advanceUnless again).cell x = s.cell x := by
  cases again <;> rfl

@[simp] theorem State.addToA_cell (s : State) (v : Byte) (cin : Bool) (x : Word) :
    (s.addToA v cin).cell x = s.cell x := rfl

@[simp] theorem State.subFromA_cell (s : State) (v : Byte) (cin : Bool) (x : Word) :
    (s.subFromA v cin).cell x = s.cell x := rfl

@[simp] theorem State.compareA_cell (s : State) (v : Byte) (x : Word) : (s.compareA v).cell x = s.cell x := rfl

@[simp] theorem State.logicToA_cell (s : State) (res : Byte) (h : Bool) (x : Word) :
    (s.logicToA res h).cell x = s.cell x := rfl

@[simp] theorem State.updateReg8_cell (s : State) (r : R8) (p : Byte × Flags) (x : Word) :
    (s.updateReg8 r p).cell x = s.cell x := rfl

@[simp] theorem State.rotateA_cell (s : State) (kind : RotKind) (x : Word) :
    (s.rotateA kind).cell x = s.cell x := rfl

@[simp] theorem State.testBit_cell (s : State) (b : BitVec 3) (v : Byte) (x : Word) :
    (s.testBit b v).cell x = s.cell x := rfl

@[simp] theorem State.withSum16_cell (s : State) (p : Word × Flags) (x : Word) :
    (s.withSum16 p).cell x = s.cell x := rfl

@[simp] theorem State.compareBlock_cell (s : State) (delta x : Word) : (s.compareBlock delta).cell x = s.cell x := by
  simp [State.compareBlock]

@[simp] theorem State.setBlockIoFlags_cell (s : State) (x : Word) : s.setBlockIoFlags.cell x = s.cell x := rfl

@[simp] theorem State.outputBlock_cell (s : State) (delta x : Word) : (s.outputBlock delta).cell x = s.cell x := by
  simp [State.outputBlock]

/-! ### The operations that store leave a cell whose writes the map does not keep (log entry 10) -/

section NotKept

variable {s : State} {x : Word} (hkept : (s.onWriteAt x).kept = false)
include hkept

/-- The one store of the machine: it reaches the cell only where the map keeps it. Every operation below is made of
such stores and of operations that leave the map. -/
@[simp] theorem State.cell_writeByte_of_not_kept (a : Word) (v : Byte) : (s.writeByte a v).cell x = s.cell x := by
  rw [State.cell_writeByte, if_neg]
  rintro ⟨rfl, hyes⟩
  exact absurd hyes (by simp [hkept])

@[simp] theorem State.cell_rewriteByte_of_not_kept (a : Word) (v : Byte) :
    (s.rewriteByte a v).cell x = s.cell x := by
  simp [State.rewriteByte, hkept]

@[simp] theorem State.cell_updateByte_of_not_kept (a : Word) (p : Byte × Flags) :
    (s.updateByte a p).cell x = s.cell x := by
  simp [State.updateByte, hkept]

@[simp] theorem State.cell_writeWord_of_not_kept (a w : Word) : (s.writeWord a w).cell x = s.cell x := by
  simp [State.writeWord, hkept]

@[simp] theorem State.cell_push16_of_not_kept (w : Word) : (s.push16 w).cell x = s.cell x := by
  simp [State.push16, hkept]

@[simp] theorem State.cell_call_of_not_kept (ret target : Word) : (s.call ret target).cell x = s.cell x := by
  simp [State.call, hkept]

@[simp] theorem State.cell_loadBlock_of_not_kept (delta : Word) : (s.loadBlock delta).cell x = s.cell x := by
  simp [State.loadBlock, hkept]

@[simp] theorem State.cell_inputBlock_of_not_kept (delta : Word) : (s.inputBlock delta).cell x = s.cell x := by
  simp [State.inputBlock, hkept]

/-- Every meaning is a chain of the operations above; the arms named are the two exchanges of banks and those whose
meaning branches on the state. -/
theorem exec_next_cell_of_not_kept (i : Instr) : ∃ t, exec i s = .next t ∧ t.cell x = s.cell x := by
  cases i with
  | exAf | exx => exact ⟨_, rfl, rfl⟩
  | jpCondNn | jrCondE | callCondNn | retCond | djnz => exact ⟨_, rfl, by split <;> simp [hkept]⟩
  | _ => exact ⟨_, rfl, by simp [hkept]⟩

end NotKept

/-! ### Every instruction leaves what is neither RAM nor a device -/

theorem exec_cell_of_not_kept {i : Instr} {s t : State} {x : Word} (h : exec i s = .next t)
    (hkept : (s.onWriteAt x).kept = false) : t.cell x = s.cell x := by
  obtain ⟨u, hu, hcell⟩ := exec_next_cell_of_not_kept hkept i
  cases hu.symm.trans h
  exact hcell

/-- Such an address reads its cell, which takes no write, or what the map alone says. -/
theorem exec_readByte_of_not_isRam {i : Instr} {s t : State} {x : Word} (h : exec i s = .next t)
    (hram : s.isRam x = false) (hdev : s.isDevice x = false) : t.readByte x = s.readByte x := by
  obtain ⟨-, hmap, -⟩ := exec_keepsInputs h
  refine State.readByte_eq_of hmap (fun hkind => ?_) (fun hyes => ?_)
  · exact exec_cell_of_not_kept h (State.not_kept_of_not_isRam hkind hram)
  · simp [hdev] at hyes

/-- Settles O24: a read follows the kind of its address, a store the effect the map gives there, and an instruction
reaches memory through such stores only. -/
theorem memoryMapBehaviour : Obligations.MemoryMapBehaviour := by
  refine ⟨fun s a v => ⟨fun _ => State.readByte_of_rom, fun _ => State.readByte_of_absent, State.readByte_of_device, ?_,
    s.writeByte_ioTrace a v, s.afterRead_ioTrace a⟩, fun i s t h => ?_⟩
  · simp [State.cell_writeByte]
  · obtain ⟨-, hmap, -⟩ := exec_keepsInputs h
    exact ⟨hmap, fun x => exec_readByte_of_not_isRam h⟩

end Sys2Proof.Machine

/-! SUPPORT. What rule R133 lists is refused by its page, so a step that finds such bytes at pc is refused by name
(obligation O3). -/

namespace Sys2Proof

/-! ### The opcode byte as a number (rule R122) -/

/-- An opcode byte is its three groups put together. -/
theorem toNat_eq_groups (op : Byte) : op.toNat = 64 * (opX op).toNat + 8 * (opY op).toNat + (opZ op).toNat := by
  have hop := op.isLt
  simp only [opX, opY, opZ, BitVec.extractLsb'_toNat, Nat.shiftRight_eq_div_pow]
  omega

/-! ### What a field that names nothing selects (rule R123) -/

theorem byR8_of_toNat_six {v : BitVec 3} (h : v.toNat = 6) (onReg : R8 → Decoded) (onSix : Decoded) :
    byR8 v onReg onSix = onSix := by
  obtain rfl : v = 6#3 := BitVec.eq_of_toNat_eq h
  exact byR8_six onReg onSix

theorem byR8_const (v : BitVec 3) (d : Decoded) : byR8 v (fun _ => d) d = d := by
  unfold byR8
  cases R8.ofCode v <;> rfl

theorem rotPick_of_toNat_six {y : BitVec 3} (h : y.toNat = 6) (unlisted rlc rrc rl rr sla sra srl : Decoded) :
    rotPick y unlisted rlc rrc rl rr sla sra srl = unlisted := by
  simp only [rotPick, h]

/-! ### Bytes DDH and FDH, and bytes that do not decide (rules R121, R127) -/

/-- The bytes after DDH or FDH are looked up in the page of the index register. -/
theorem decode_prefixByte (xy : XY) (rest : List Byte) : decode (xy.prefixByte :: rest) = decodeAfterXY xy rest := by
  cases xy <;> rfl

/-- Bytes that do not decide have no beginning that decides. -/
theorem decode_take_of_truncated {bs : List Byte} (h : decode bs = .error .truncated) (k : Nat) :
    decode (bs.take k) = .error .truncated := by
  rcases keptBy_decode (bs.drop k) (bs.take k) with htrunc | hsame
  · exact htrunc
  · rw [List.take_append_drop, h] at hsame
    cases hd : decode (bs.take k) with
    | ok p => rw [hd] at hsame; cases hsame
    | error why => rw [hd] at hsame; exact hsame.symm

end Sys2Proof

namespace Sys2Proof.Machine

/-! ### Each page refuses the opcode bytes that rule R133 lists for it -/

@[simp] theorem inRanges_nil (op : Byte) : ¬ inRanges op [] := by
  simp [inRanges]

@[simp] theorem inRanges_cons (op : Byte) (g : Nat × Nat) (ranges : List (Nat × Nat)) :
    inRanges op (g :: ranges) ↔ (g.1 ≤ op.toNat ∧ op.toNat ≤ g.2) ∨ inRanges op ranges := by
  simp [inRanges]

/-- The listed bytes are the rotate group of the page with operation 6. -/
theorem decodeCB_unlisted {op : Byte} (h : inRanges op [(0x30, 0x37)]) (rest : List Byte) :
    decodeCB op rest = .error (.unlisted .cb op) := by
  have hgroups := toNat_eq_groups op
  have hz := (opZ op).isLt
  simp only [inRanges_cons, inRanges_nil, or_false] at h
  have hx0 : (opX op).toNat = 0 := by omega
  have hy6 : (opY op).toNat = 6 := by omega
  simp only [decodeCB, hx0, rotPick_of_toNat_six hy6, byR8_const]

/-- The arms of the page have their bytes outside the list, but that the arms of `IN r,(C)` (`h_1`) and `OUT (C),r`
(`h_2`) also match register code 6, which is listed. -/
theorem decodeED_unlisted {op : Byte} (h : inRanges op unlistedED) (rest : List Byte) :
    decodeED op rest = .error (.unlisted .ed op) := by
  have hgroups := toNat_eq_groups op
  have hybound := (opY op).isLt
  simp only [unlistedED, inRanges_cons, inRanges_nil, or_false] at h
  unfold decodeED
  generalize hx : (opX op).toNat = x, hz : (opZ op).toNat = z, hy : (opY op).toNat = y at *
  split
  case h_1 => exact byR8_of_toNat_six (by omega) _ _
  case h_2 => exact byR8_of_toNat_six (by omega) _ _
  case h_33 => rfl
  all_goals omega

/-- The arms of the page have their bytes outside the list, but that the arm of `ADD` (`h_2`) also matches bytes with
bit 3 clear, and the arms of `LD (xy+d),r` (`h_10`) and `LD r,(xy+d)` (`h_11`) also match register code 6: these are
listed. -/
theorem decodeIndex_unlisted (xy : XY) {op : Byte} (h : inRanges op unlistedXY) (rest : List Byte) :
    decodeIndex xy op rest = .error (.unlisted (.index xy) op) := by
  have hgroups := toNat_eq_groups op
  have hzbound := (opZ op).isLt
  have hybound := (opY op).isLt
  simp only [unlistedXY, inRanges_cons, inRanges_nil, or_false] at h
  unfold decodeIndex
  generalize hx : (opX op).toNat = x, hz : (opZ op).toNat = z, hy : (opY op).toNat = y at *
  split
  case h_2 => exact if_pos (by omega)
  case h_10 => exact byR8_of_toNat_six (by omega) _ _
  case h_11 => exact byR8_of_toNat_six (by omega) _ _
  case h_18 => rfl
  all_goals omega

/-- Every entry of the page has code 6 in bits 2:0, and the rotate group has no operation 6. -/
theorem decodeIndexBit_unlisted (xy : XY) (d : Byte) {op : Byte} (h : op = 0x36 ∨ op.toNat % 8 ≠ 6)
    (rest : List Byte) : decodeIndexBit xy d op rest = .error (.unlisted (.indexBit xy) op) := by
  rcases h with rfl | hcode
  · rfl
  · have hgroups := toNat_eq_groups op
    have hz : (opZ op).toNat ≠ 6 := by omega
    unfold decodeIndexBit
    split
    case h_5 => rfl
    all_goals contradiction

/-! ### The same after the bytes that lead to the page -/

theorem decode_index_unlisted (xy : XY) {op : Byte} (h : inRanges op unlistedXY) :
    decode [xy.prefixByte, op] = .error (.unlisted (.index xy) op) := by
  have hop : op ≠ 0xCB := by
    rintro rfl
    revert h
    simp [unlistedXY]
  rw [decode_prefixByte]
  exact (if_neg hop).trans (decodeIndex_unlisted xy h [])

theorem decode_indexBit_unlisted (xy : XY) (d : Byte) {op : Byte} (h : op = 0x36 ∨ op.toNat % 8 ≠ 6) :
    decode [xy.prefixByte, 0xCB, d, op] = .error (.unlisted (.indexBit xy) op) := by
  rw [decode_prefixByte]
  exact decodeIndexBit_unlisted xy d h []

/-! ### A step is refused for the bytes at pc (rules R127, R133) -/

/-- A step whose bytes at pc are refused by the decoder at the byte `last`, and not before, is refused for the same
reason. -/
theorem step_of_unlisted {s : State} {init : List Byte} {last op : Byte} {page : Page} (hexec : s.Executes)
    (hbytes : s.ReadsBytes s.pc (init ++ [last])) (hinit : decode init = .error .truncated)
    (hlast : decode (init ++ [last]) = .error (.unlisted page op)) :
    step s = .refused (.unlistedEncoding (.unlisted page op)) := by
  have hlen : init.length < 4 := by
    by_contra hfour
    exact decided_decode (by omega) hinit
  have hshorter : ∀ k, 0 < k → k < (init ++ [last]).length → decode ((init ++ [last]).take k) = .error .truncated := by
    intro k _ hk
    rw [List.length_append, List.length_singleton] at hk
    rw [List.take_append_of_le_length (by omega)]
    exact decode_take_of_truncated hinit k
  have hfetch : s.sample.fetched = .error (.unlisted page op) := by
    rw [State.fetched, State.fetch_of_reads (fin := .error (.unlisted page op)) (by simp) (by simp)
      (by simpa using hlen) (by simpa using hbytes.sample) hshorter (by rw [hlast]; rfl)]
  rw [step_of_executes hexec, hfetch]

theorem step_of_index_unlisted (xy : XY) {s : State} {op : Byte} (hexec : s.Executes)
    (hbytes : s.ReadsBytes s.pc [xy.prefixByte, op]) (hop : inRanges op unlistedXY) :
    step s = .refused (.unlistedEncoding (.unlisted (.index xy) op)) :=
  step_of_unlisted (init := [xy.prefixByte]) hexec hbytes (decode_prefixByte xy []) (decode_index_unlisted xy hop)

theorem step_of_indexBit_unlisted (xy : XY) {s : State} {d op : Byte} (hexec : s.Executes)
    (hbytes : s.ReadsBytes s.pc [xy.prefixByte, 0xCB, d, op]) (hop : op = 0x36 ∨ op.toNat % 8 ≠ 6) :
    step s = .refused (.unlistedEncoding (.unlisted (.indexBit xy) op)) :=
  step_of_unlisted (init := [xy.prefixByte, 0xCB, d]) hexec hbytes (decode_prefixByte xy [0xCB, d])
    (decode_indexBit_unlisted xy d hop)

/-- Settles O3: the bytes that lead to a page decide nothing, and each page refuses by name the opcode bytes of its list. -/
theorem unlistedEncodingsAreRefused : Obligations.UnlistedEncodingsAreRefused := by
  intro s d op hexec
  refine ⟨fun hbytes hop => ?_, fun hbytes hop => ?_, step_of_index_unlisted .ix hexec, step_of_index_unlisted .iy hexec,
    step_of_indexBit_unlisted .ix hexec, step_of_indexBit_unlisted .iy hexec⟩
  · exact step_of_unlisted (init := [0xCB]) hexec hbytes rfl (decodeCB_unlisted hop [])
  · exact step_of_unlisted (init := [0xED]) hexec hbytes rfl (decodeED_unlisted hop [])

end Sys2Proof.Machine


/-! SUPPORT. What an update after some accesses leaves unchanged, and the 8-bit loads (obligations O25 to O28): a load is
its accesses and one register written, a store is one byte written, and each has one lemma for all of its forms. -/

namespace Sys2Proof.Machine

/-! ### Frames built up from the operations of a meaning -/

theorem Frame.refl (s : State) : Frame {} s s := by
  apply Frame.of_cells <;> simp

theorem State.afterRead_frame (s : State) (a : Word) : Frame { bus := [.read a] } s (s.afterRead a) := by
  apply Frame.of_cells
  case htrace => rfl
  all_goals simp [State.reg8]

theorem State.writeByte_frame (s : State) (a : Word) (v : Byte) :
    Frame { mem := [a], bus := [.write a v] } s (s.writeByte a v) := by
  apply Frame.of_cells
  case hcell => exact fun x hx => State.cell_writeByte_other v (List.ne_of_not_mem_cons hx)
  case htrace => rfl
  all_goals simp [State.reg8]

theorem State.afterReadR_frame (s : State) : Frame {} s s.afterReadR := by
  apply Frame.of_cells <;> simp [State.reg8]

theorem State.setI_frame (s : State) (v : Byte) : Frame { i := true } s (s.setI v) := by
  apply Frame.of_cells <;> simp [State.reg8]

theorem State.setR_frame (s : State) (v : Byte) : Frame { r := true } s (s.setR v) := by
  apply Frame.of_cells <;> simp [State.reg8]

theorem Frame.setReg8 {w : Writes} {s t : State} (h : Frame w s t) (r : R8) (v : Byte) :
    Frame { w with regs := r :: w.regs } s (t.setReg8 r v) := by
  obtain ⟨hreg, hf, hrest⟩ := h
  refine ⟨fun q hq => ?_, fun hw => ?_, hrest⟩
  · obtain ⟨hne, hout⟩ := List.ne_and_not_mem_of_not_mem_cons hq
    exact (Bank.set_get_other _ v hne).trans (hreg q hout)
  · exact (Bank.set_f _ r v).trans (hf hw)

theorem Frame.setFlags {w : Writes} {s t : State} (h : Frame w s t) (fl : Flags) :
    Frame { w with flags := true } s (t.setFlags fl) := by
  obtain ⟨hreg, _, hrest⟩ := h
  exact ⟨fun r hr => (t.setFlags_reg8 fl r).trans (hreg r hr), nofun, hrest⟩

theorem Frame.advance {w : Writes} {s t : State} (h : Frame w s t) (n : Word) : Frame w s (t.advance n) := h

/-! ### The loads of one 8-bit register (rules R200 to R202, R205, R206, R211 to R213) -/

/-- `u` is what the accesses of the load leave of `s`. -/
theorem Runs.loadReg8 {i : Instr} {bytes : List Byte} {s u : State} {r : R8} {v : Byte} {n : Word} {bus : List Access}
    (hframe : Frame { bus := bus } s u) (hpc : u.pc = s.pc) (hbytes : encode i = bytes)
    (hexec : exec i s = .next ((u.setReg8 r v).advance n)) :
    Runs i bytes s (fun t => t.pc = s.pc + n ∧ t.reg8 r = v ∧ Frame { regs := [r], bus := bus } s t) :=
  ⟨hbytes, _, hexec, by simp [hpc], Bank.set_get_same _ r v, (hframe.setReg8 r v).advance n⟩

/-- The load of a register from the byte at `a`. -/
theorem Runs.loadReg8FromMem {i : Instr} {bytes : List Byte} {s : State} (r : R8) {a n : Word}
    (hbytes : encode i = bytes)
    (hexec : exec i s = .next (((s.afterRead a).setReg8 r (s.readByte a)).advance n)) :
    Runs i bytes s (fun t =>
      t.pc = s.pc + n ∧ t.reg8 r = s.readByte a ∧ Frame { regs := [r], bus := [.read a] } s t) :=
  Runs.loadReg8 (s.afterRead_frame a) (s.afterRead_pc a) hbytes hexec

/-- Settles O25: each form writes its register after the accesses of its operand, a read of memory or none. -/
theorem loadRegister8 : Obligations.LoadRegister8 := fun s r _ _ _ =>
  ⟨Runs.loadReg8 (Frame.refl s) rfl rfl rfl, Runs.loadReg8 (Frame.refl s) rfl rfl rfl,
    Runs.loadReg8FromMem r rfl rfl, Runs.loadReg8FromMem r rfl rfl, Runs.loadReg8FromMem r rfl rfl⟩

/-! ### The stores of one byte (rules R203, R204, R207 to R210, R214 to R216) -/

theorem Runs.storeByte {i : Instr} {bytes : List Byte} {s : State} {a n : Word} {v : Byte} (hbytes : encode i = bytes)
    (hexec : exec i s = .next ((s.writeByte a v).advance n)) :
    Runs i bytes s (fun t =>
      t.pc = s.pc + n ∧ Stored s t a v ∧ Frame { mem := [a], bus := [.write a v] } s t) :=
  ⟨hbytes, _, hexec, by simp, Stored.of_writeByte rfl, (s.writeByte_frame a v).advance n⟩

/-- Settles O26: each form is one store, at the address its operand gives. -/
theorem storeByteThroughHlIxIy : Obligations.StoreByteThroughHlIxIy := fun _ _ _ _ =>
  ⟨Runs.storeByte rfl rfl, Runs.storeByte rfl rfl, Runs.storeByte rfl rfl, Runs.storeByte rfl rfl,
    Runs.storeByte rfl rfl, Runs.storeByte rfl rfl⟩

/-- Settles O27: the loads write register A of table `r8`, the stores are one store of A. -/
theorem accumulatorLoadsAndStores : Obligations.AccumulatorLoadsAndStores := fun _ _ =>
  ⟨Runs.loadReg8FromMem .a rfl rfl, Runs.loadReg8FromMem .a rfl rfl, Runs.loadReg8FromMem .a rfl rfl,
    Runs.storeByte rfl rfl, Runs.storeByte rfl rfl, Runs.storeByte rfl rfl⟩

/-! ### I and R (rules R217 to R220) -/

/-- What `LD A,I` and `LD A,R` leave of F, and what they leave unchanged (rules R217, R218), from the state `u` that
reading the register leaves. -/
theorem loadAWithInterruptFlags_spec {s u t : State} {v : Byte} (hframe : Frame {} s u) (hdraws : s.draws ≤ u.draws)
    (ht : t = ((u.setA v).setFlags (interruptFlags v s.iff2 s.flags)).advance 2) :
    SignZero v t.flags ∧ t.flags.h = false ∧ t.flags.pv = s.iff2 ∧ t.flags.n = false ∧ t.flags.c = s.flags.c ∧
      OpenBits s t ∧ Frame { regs := [.a], flags := true } s t := by
  have hflags : t.flags = interruptFlags v s.iff2 s.flags := by simp [ht]
  have hopen : OpenBits s t := by
    subst ht
    exact OpenBits.of_setFlags (u := u.setA v) _ hdraws rfl (Nat.le_refl _)
  rw [hflags]
  refine ⟨signZero_of rfl rfl, rfl, rfl, rfl, rfl, hopen, ?_⟩
  rw [ht]
  exact ((hframe.setReg8 .a v).setFlags _).advance 2

theorem State.readR_of_m1Count {s : State} (h : s.rModel = .m1Count) : s.readR = s.r := by
  simp [State.readR, h]

theorem State.readR_of_draw {s : State} (h : s.rModel = .draw) : s.readR = Config.freeByte s.draws := by
  simp [State.readR, h]

theorem State.draws_le_afterReadR (s : State) : s.draws ≤ s.afterReadR.draws := by
  obtain ⟨-, -, -, -, hdraws⟩ := s.afterReadR_makesDraws
  omega

/-- Settles O28: `LD A,I` and `LD A,R` share the rule of their flags, and each copy of A writes one register. -/
theorem interruptAndRefreshRegisterMoves : Obligations.InterruptAndRefreshRegisterMoves := by
  intro s
  have hdraws := s.draws_le_afterReadR
  refine ⟨⟨rfl, _, rfl, rfl, rfl, loadAWithInterruptFlags_spec (Frame.refl s) (Nat.le_refl _) rfl⟩,
    ⟨rfl, _, rfl, ?pc, State.readR_of_m1Count, fun h => ⟨State.readR_of_draw h, ?drawn⟩,
      loadAWithInterruptFlags_spec s.afterReadR_frame hdraws rfl⟩,
    ⟨rfl, _, rfl, rfl, rfl, (s.setI_frame s.main.a).advance 2⟩,
    ⟨rfl, _, rfl, rfl, rfl, (s.setR_frame s.main.a).advance 2⟩⟩
  case pc => simp
  case drawn =>
    simp only [State.advance_draws, State.setFlags_draws, State.setA_draws]
    omega

end Sys2Proof.Machine

/-! SUPPORT. The 16-bit loads, PUSH and POP (obligations O29 to O31): what writing a pair, IX, IY or SP adds to a frame,
then one lemma each for a word loaded, loaded from memory, stored, pushed and popped, whatever register the word goes
to or comes from. -/

namespace Sys2Proof.Machine

/-! ### The accesses to a word (rules R82, R83) -/

theorem State.afterReadWord_frame (s : State) (a : Word) : Frame { bus := wordReads a } s (s.afterReadWord a) := by
  apply Frame.of_cells
  case htrace => rfl
  all_goals simp [State.reg8]

theorem State.writeWord_frame (s : State) (a w : Word) :
    Frame { mem := [a, a + 1], bus := wordWrites a w } s (s.writeWord a w) := by
  apply Frame.of_cells
  case hcell =>
    intro x hx
    obtain ⟨hlo, hhi⟩ : x ≠ a ∧ x ≠ a + 1 := by simpa using hx
    exact State.cell_writeWord_other a w hlo hhi
  case htrace => rfl
  all_goals simp [State.reg8]

/-! ### The 16-bit destinations -/

@[simp] theorem State.setPair_pc (s : State) (p : RR) (v : Word) : (s.setPair p v).pc = s.pc := by
  cases p <;> rfl

@[simp] theorem State.setStackPair_pc (s : State) (q : QQ) (v : Word) : (s.setStackPair q v).pc = s.pc := by
  cases q <;> rfl

@[simp] theorem State.setStackPair_sp (s : State) (q : QQ) (v : Word) : (s.setStackPair q v).sp = s.sp := by
  cases q <;> rfl

section FrameOfDestination

variable {w : Writes} {s t : State} (h : Frame w s t) (v : Word)
include h

theorem Frame.setIX : Frame { w with ix := true } s (t.setIX v) := by
  obtain ⟨hreg, hf, halt, -, hrest⟩ := h
  exact ⟨hreg, hf, halt, nofun, hrest⟩

theorem Frame.setIY : Frame { w with iy := true } s (t.setIY v) := by
  obtain ⟨hreg, hf, halt, hix, -, hrest⟩ := h
  exact ⟨hreg, hf, halt, hix, nofun, hrest⟩

theorem Frame.setSP : Frame { w with sp := true } s (t.setSP v) := by
  obtain ⟨hreg, hf, halt, hix, hiy, -, hrest⟩ := h
  exact ⟨hreg, hf, halt, hix, hiy, nofun, hrest⟩

theorem Frame.setBC : Frame { w with regs := .b :: .c :: w.regs } s (t.setBC v) :=
  (h.setReg8 .c (loByte v)).setReg8 .b (hiByte v)

theorem Frame.setDE : Frame { w with regs := .d :: .e :: w.regs } s (t.setDE v) :=
  (h.setReg8 .e (loByte v)).setReg8 .d (hiByte v)

theorem Frame.setHL : Frame { w with regs := .h :: .l :: w.regs } s (t.setHL v) :=
  (h.setReg8 .l (loByte v)).setReg8 .h (hiByte v)

/-- `setAF` writes register A and all of F (D36). -/
theorem Frame.setAF : Frame { w with regs := .a :: w.regs, flags := true } s (t.setAF v) := by
  obtain ⟨hreg, -, hrest⟩ := h.setReg8 .a (hiByte v)
  refine ⟨fun r hr => ?_, nofun, hrest⟩
  have hsame : (t.setAF v).reg8 r = (t.setReg8 .a (hiByte v)).reg8 r := by cases r <;> rfl
  exact hsame.trans (hreg r hr)

theorem Frame.setPair (p : RR) :
    Frame { w with regs := p.halves ++ w.regs, sp := p == .sp || w.sp } s (t.setPair p v) := by
  cases p with
  | bc => exact h.setBC v
  | de => exact h.setDE v
  | hl => exact h.setHL v
  | sp => exact h.setSP v

theorem Frame.setStackPair (q : QQ) :
    Frame { w with regs := q.halves ++ w.regs, flags := q == .af || w.flags } s (t.setStackPair q v) := by
  cases q with
  | bc => exact h.setBC v
  | de => exact h.setDE v
  | hl => exact h.setHL v
  | af => exact h.setAF v

end FrameOfDestination

/-- A pair written after nothing but accesses. -/
theorem Frame.setPair_of_bus {bus : List Access} {s u : State} (h : Frame { bus := bus } s u) (p : RR) (v : Word) :
    Frame { regs := p.halves, sp := p == .sp, bus := bus } s (u.setPair p v) := by
  simpa using h.setPair v p

/-! ### The loads of a word (rules R240 to R246) -/

/-- `u` is the state with the destination written, `get` reads the destination. -/
theorem Runs.loadWord {i : Instr} {bytes : List Byte} {s u : State} {get : State → Word} {v n : Word} {w : Writes}
    (hframe : Frame w s u) (hpc : u.pc = s.pc) (hget : get (u.advance n) = v) (hbytes : encode i = bytes)
    (hexec : exec i s = .next (u.advance n)) :
    Runs i bytes s (fun t => t.pc = s.pc + n ∧ get t = v ∧ Frame w s t) :=
  ⟨hbytes, _, hexec, by simp [hpc], hget, hframe.advance n⟩

/-- The load of a destination from the word at `a`. -/
theorem Runs.loadWordFromMem {i : Instr} {bytes : List Byte} {s u : State} {get : State → Word} {a n : Word}
    {w : Writes} (hframe : Frame w s u) (hpc : u.pc = s.pc) (hget : get (u.advance n) = s.readWord a)
    (hbytes : encode i = bytes) (hexec : exec i s = .next (u.advance n)) :
    Runs i bytes s (fun t => t.pc = s.pc + n ∧ HoldsWord s a (get t) ∧ Frame w s t) :=
  ⟨hbytes, _, hexec, by simp [hpc], hget ▸ HoldsWord.of_readWord s a, hframe.advance n⟩

/-- `LD rr,(nn)`, and `LD HL,(nn)` in both of its encodings (rules R243, R244). -/
theorem Runs.loadPairFromMem {i : Instr} {bytes : List Byte} {s : State} (p : RR) {a n : Word}
    (hbytes : encode i = bytes)
    (hexec : exec i s = .next (((s.afterReadWord a).setPair p (s.readWord a)).advance n)) :
    Runs i bytes s (fun t => t.pc = s.pc + n ∧ HoldsWord s a (t.pair p) ∧
      Frame { regs := p.halves, sp := p == .sp, bus := wordReads a } s t) :=
  Runs.loadWordFromMem ((s.afterReadWord_frame a).setPair_of_bus p _) (by simp) (State.setPair_pair _ p _) hbytes hexec

/-- Settles O29: each form writes its destination after the accesses of its source, two reads of memory or none. -/
theorem loadPair16 : Obligations.LoadPair16 := fun s p nn =>
  have hreads := s.afterReadWord_frame nn
  have hpc := s.afterReadWord_pc nn
  ⟨Runs.loadWord ((Frame.refl s).setPair_of_bus p nn) (s.setPair_pc p nn) (s.setPair_pair p nn) rfl rfl,
    Runs.loadWord ((Frame.refl s).setIX nn) rfl rfl rfl rfl,
    Runs.loadWord ((Frame.refl s).setIY nn) rfl rfl rfl rfl,
    Runs.loadPairFromMem .hl rfl rfl,
    Runs.loadPairFromMem p rfl rfl,
    Runs.loadWordFromMem (hreads.setIX (s.readWord nn)) hpc rfl rfl rfl,
    Runs.loadWordFromMem (hreads.setIY (s.readWord nn)) hpc rfl rfl rfl⟩

/-! ### The stores of a word and the loads of SP (rules R247 to R253) -/

theorem Runs.storeWord {i : Instr} {bytes : List Byte} {s : State} {a w n : Word} (hbytes : encode i = bytes)
    (hexec : exec i s = .next ((s.writeWord a w).advance n)) :
    Runs i bytes s (fun t =>
      t.pc = s.pc + n ∧ StoredWord s t a w ∧ Frame { mem := [a, a + 1], bus := wordWrites a w } s t) :=
  ⟨hbytes, _, hexec, by simp, StoredWord.of_writeWord (fun _ => rfl), (s.writeWord_frame a w).advance n⟩

theorem Runs.loadSP {i : Instr} {bytes : List Byte} {s : State} {v n : Word} (hbytes : encode i = bytes)
    (hexec : exec i s = .next ((s.setSP v).advance n)) :
    Runs i bytes s (fun t => t.pc = s.pc + n ∧ t.sp = v ∧ Frame { sp := true } s t) :=
  Runs.loadWord ((Frame.refl s).setSP v) rfl rfl hbytes hexec

/-- Settles O30: each store is one store of a word, and each load of SP copies its register. -/
theorem storePair16AndLoadSp : Obligations.StorePair16AndLoadSp := fun _ _ _ =>
  ⟨Runs.storeWord rfl rfl, Runs.storeWord rfl rfl, Runs.storeWord rfl rfl, Runs.storeWord rfl rfl,
    Runs.loadSP rfl rfl, Runs.loadSP rfl rfl, Runs.loadSP rfl rfl⟩

/-! ### PUSH and POP (rules R95, R254 to R259) -/

theorem Runs.push {i : Instr} {bytes : List Byte} {s : State} {w n : Word} (hbytes : encode i = bytes)
    (hexec : exec i s = .next ((s.push16 w).advance n)) :
    Runs i bytes s (fun t => t.pc = s.pc + n ∧ Pushed s t w ∧
      Frame { sp := true, mem := stackCells s, bus := pushWrites s.sp w } s t) :=
  ⟨hbytes, _, hexec, by simp, s.push16_pushed w, (s.push16_frame w).advance n⟩

/-- `u` is what the pop leaves with the destination written, which moves neither pc nor SP. -/
theorem Runs.pop {i : Instr} {bytes : List Byte} {s u : State} {get : State → Word} {n : Word} {w : Writes}
    (hframe : Frame w s u) (hpc : u.pc = s.afterPop.pc) (hsp : u.sp = s.afterPop.sp)
    (hget : get (u.advance n) = s.popped) (hbytes : encode i = bytes) (hexec : exec i s = .next (u.advance n)) :
    Runs i bytes s (fun t =>
      t.pc = s.pc + n ∧ HoldsWord s s.sp (get t) ∧ t.sp = s.sp + 2 ∧ Frame w s t) :=
  ⟨hbytes, _, hexec, by simp [hpc], hget ▸ HoldsWord.of_readWord s s.sp, hsp.trans s.afterPop_sp, hframe.advance n⟩

/-- Settles O31: each PUSH is one `push16`, each POP writes the popped word to its destination. -/
theorem pushAndPop : Obligations.PushAndPop := fun s q =>
  have hpopPair : Frame { regs := q.halves, flags := q == .af, sp := true, bus := wordReads s.sp } s
      (s.afterPop.setStackPair q s.popped) := by
    simpa using s.afterPop_frame.setStackPair s.popped q
  ⟨Runs.push rfl rfl, Runs.push rfl rfl, Runs.push rfl rfl,
    Runs.pop hpopPair (State.setStackPair_pc _ q _) (State.setStackPair_sp _ q _)
      (State.setStackPair_stackPair _ q _) rfl rfl,
    Runs.pop (s.afterPop_frame.setIX s.popped) rfl rfl rfl rfl rfl,
    Runs.pop (s.afterPop_frame.setIY s.popped) rfl rfl rfl rfl rfl⟩

end Sys2Proof.Machine

/-! SUPPORT. The exchanges, the block loads and the block compares (obligations O32 to O34): what a store after other
accesses adds to a frame, then one lemma for the three exchanges with the stack top, one for the block loads and one
for the block compares, whichever way the pointers step and whether or not the instruction repeats. -/

namespace Sys2Proof.Machine

/-! ### A store after other accesses -/

@[simp] theorem State.accesses_memMap (s : State) (bus : List Access) : (s.accesses bus).memMap = s.memMap := by
  induction bus generalizing s with
  | nil => rfl
  | cons e rest ih => cases e <;> simp [ih]

theorem Frame.writeByte {w : Writes} {s t : State} (h : Frame w s t) (a : Word) (v : Byte) :
    Frame { w with mem := w.mem ++ [a], bus := w.bus ++ [.write a v] } s (t.writeByte a v) := by
  obtain ⟨hreg, hf, halt, hix, hiy, hsp, hi, hr, hiff, him, hhalted, hei, hnmi, hpins, hcell, -, htrace, hport, hmap,
    hrm, hbio⟩ := h
  apply Frame.of_cells
  case hreg => exact fun r hout => (congrArg (Bank.get · r) (t.writeByte_main a v)).trans (hreg r hout)
  case hcell =>
    intro x hx
    obtain ⟨hout, hne⟩ : x ∉ w.mem ∧ x ≠ a := by simpa using hx
    exact (State.cell_writeByte_other v hne).trans (hcell x hout)
  case htrace =>
    rw [State.accesses_append]
    exact State.writeByte_ioTrace_congr a v (by simp [hmap]) htrace
  all_goals simpa

theorem Frame.of_regs_subset {w : Writes} {s t : State} {regs : List R8} (h : Frame w s t) (hsub : w.regs ⊆ regs) :
    Frame { w with regs := regs } s t := by
  obtain ⟨hreg, hrest⟩ := h
  exact ⟨fun r hout => hreg r fun hin => hout (hsub hin), hrest⟩

/-! ### Pairs after pc is set -/

@[simp] theorem State.jump_bc (s : State) (target : Word) : (s.jump target).bc = s.bc := rfl
@[simp] theorem State.advance_hl (s : State) (n : Word) : (s.advance n).hl = s.hl := rfl

/-! ### The exchanges (rules R280 to R285) -/

/-- Two reads, then two writes (rule R99); the order of the writes is that of log entry 25. -/
theorem State.exchangeWord_frame (s : State) (a w : Word) :
    Frame { mem := [a, a + 1], bus := wordReads a ++ wordWrites a w } s ((s.afterReadWord a).writeWord a w) :=
  ((s.afterReadWord_frame a).writeByte a (loByte w)).writeByte (a + 1) (hiByte w)

/-- `EX (SP),HL`, `EX (SP),IX` and `EX (SP),IY`: `v` is the register's word, `u` is the state with the word of
the stack written to the register, `get` reads the register. -/
theorem Runs.exchangeAtSp {i : Instr} {bytes : List Byte} {s u : State} {get : State → Word} {v n : Word} {w : Writes}
    (hframe : Frame w s u) (hpc : u.pc = s.pc) (hget : get (u.advance n) = s.readWord s.sp)
    (hread : ∀ x, u.readByte x = ((s.afterReadWord s.sp).writeWord s.sp v).readByte x) (hbytes : encode i = bytes)
    (hexec : exec i s = .next (u.advance n)) :
    Runs i bytes s (fun t =>
      t.pc = s.pc + n ∧ HoldsWord s s.sp (get t) ∧ StoredWord s t s.sp v ∧ Frame w s t) :=
  ⟨hbytes, _, hexec, by simp [hpc], hget ▸ HoldsWord.of_readWord s s.sp,
    StoredWord.of_eq (s.afterReadWord_isRam s.sp) hread, hframe.advance n⟩

/-- `EX AF,AF'` and `EXX` replace the two banks and touch nothing else but pc. -/
theorem Frame.of_banks {s t : State} {regs : List R8} {flags : Bool}
    (ht : t = { s with main := t.main, alt := t.alt, pc := t.pc })
    (hreg : ∀ r, r ∉ regs → t.reg8 r = s.reg8 r) (hf : flags = false → t.main.f = s.main.f) :
    Frame { regs := regs, flags := flags, alt := true } s t := by
  rw [ht] at hreg hf ⊢
  obtain ⟨-, -, -, hrest⟩ := Frame.refl s
  exact ⟨hreg, hf, nofun, hrest⟩

/-- Settles O32: `EX DE,HL` writes two pairs, `EX AF,AF'` and `EXX` replace the banks, and the three exchanges with the
stack top are one lemma. -/
theorem exchanges : Obligations.Exchanges := by
  intro s
  have hpairs := ((Frame.refl s).setDE s.hl).setHL s.de
  refine ⟨⟨rfl, _, rfl, rfl, s.setDE_de s.hl, s.setHL_hl s.de, (hpairs.of_regs_subset (by decide)).advance 1⟩,
    ⟨rfl, _, rfl, rfl, rfl, rfl, rfl, Frame.of_banks rfl ?exAf nofun⟩,
    ⟨rfl, _, rfl, rfl, rfl, rfl, Frame.of_banks rfl ?exx fun _ => rfl⟩,
    Runs.exchangeAtSp ((s.exchangeWord_frame s.sp s.hl).setHL (s.readWord s.sp)) (by simp) (by simp)
      (State.setHL_readByte _ _) rfl rfl,
    Runs.exchangeAtSp ((s.exchangeWord_frame s.sp s.ix).setIX (s.readWord s.sp)) (by simp) rfl
      (State.setIX_readByte _ _) rfl rfl,
    Runs.exchangeAtSp ((s.exchangeWord_frame s.sp s.iy).setIY (s.readWord s.sp)) (by simp) rfl
      (State.setIY_readByte _ _) rfl rfl⟩
  case exAf =>
    intro r hr
    cases r with
    | a => simp at hr
    | _ => rfl
  case exx =>
    intro r hr
    cases r with
    | a => rfl
    | _ => simp at hr

/-! ### One iteration of a block instruction -/

/-- A repeating instruction stays at its address or goes past it, and touches nothing else (rules R287, R291). -/
theorem State.advanceUnless_eq_jump (s : State) (again : Bool) :
    s.advanceUnless again = s.jump (if again then s.pc else s.pc + 2) := by
  cases again <;> rfl

/-! ### The block loads (rules R286 to R289) -/

/-- What `LDI`, `LDD`, `LDIR` and `LDDR` leave but for pc, where the pointers step to `hl` and `de`. -/
def BlockLoaded (s t : State) (hl de : Word) : Prop :=
  Stored s t s.de (s.readByte s.hl) ∧ t.hl = hl ∧ t.de = de ∧ t.bc = s.bc - 1 ∧
    t.flags.h = false ∧ (t.flags.pv = true ↔ t.bc ≠ 0) ∧ t.flags.n = false ∧ t.flags.s = s.flags.s ∧
    t.flags.z = s.flags.z ∧ t.flags.c = s.flags.c ∧ OpenBits s t ∧
    Frame { regs := [.b, .c, .d, .e, .h, .l], flags := true, mem := [s.de],
            bus := [.read s.hl, .write s.de (s.readByte s.hl)] } s t

theorem BlockLoaded.jump {s t : State} {hl de : Word} (h : BlockLoaded s t hl de) (target : Word) :
    BlockLoaded s (t.jump target) hl de := h

@[simp] theorem State.loadBlock_pc (s : State) (delta : Word) : (s.loadBlock delta).pc = s.pc := by
  simp [State.loadBlock]

theorem State.loadBlock_openBits (s : State) (delta : Word) : OpenBits s (s.loadBlock delta) :=
  OpenBits.of_setFlags _ (by simp) rfl (Nat.le_refl _)

theorem State.loadBlock_frame (s : State) (delta : Word) :
    Frame { regs := [.b, .c, .d, .e, .h, .l], flags := true, mem := [s.de],
            bus := [.read s.hl, .write s.de (s.readByte s.hl)] } s (s.loadBlock delta) :=
  (((((s.afterRead_frame s.hl).writeByte s.de (s.readByte s.hl)).setHL _).setDE _).setBC _).setFlags _

theorem State.loadBlock_loaded (s : State) (delta : Word) :
    BlockLoaded s (s.loadBlock delta) (s.hl + delta) (s.de + delta) := by
  obtain ⟨hhl, hde, hbc, hflags⟩ := s.loadBlock_spec delta
  have hstored : Stored s (s.loadBlock delta) s.de (s.readByte s.hl) :=
    Stored.of_eq (s.afterRead_isRam s.hl s.de) (by simp [State.loadBlock])
  refine ⟨hstored, hhl, hde, hbc, ?_, ?_, ?_, ?_, ?_, ?_, s.loadBlock_openBits delta, s.loadBlock_frame delta⟩
  all_goals simp [hflags, hbc]

theorem Runs.loadBlockOnce {i : Instr} {bytes : List Byte} {s : State} {delta hl de : Word}
    (hhl : s.hl + delta = hl) (hde : s.de + delta = de) (hbytes : encode i = bytes)
    (hexec : exec i s = .next ((s.loadBlock delta).advance 2)) :
    Runs i bytes s (fun t => t.pc = s.pc + 2 ∧ BlockLoaded s t hl de) := by
  subst hhl hde
  exact ⟨hbytes, _, hexec, by simp, (s.loadBlock_loaded delta).jump _⟩

theorem Runs.loadBlockRepeating {i : Instr} {bytes : List Byte} {s : State} {delta hl de : Word}
    (hhl : s.hl + delta = hl) (hde : s.de + delta = de) (hbytes : encode i = bytes)
    (hexec : exec i s = .next ((s.loadBlock delta).advanceUnless (s.bc - 1 != 0))) :
    Runs i bytes s (fun t => t.pc = (if t.bc = 0 then s.pc + 2 else s.pc) ∧ BlockLoaded s t hl de) := by
  subst hhl hde
  rw [State.advanceUnless_eq_jump] at hexec
  obtain ⟨-, -, hbc, -⟩ := s.loadBlock_spec delta
  exact ⟨hbytes, _, hexec, by simp [hbc], (s.loadBlock_loaded delta).jump _⟩

/-- Settles O33: the four block loads are one iteration of the same load, forward or backward. -/
theorem blockLoads : Obligations.BlockLoads := fun s =>
  have hhl := (sub_eq_add_neg s.hl 1).symm
  have hde := (sub_eq_add_neg s.de 1).symm
  ⟨Runs.loadBlockOnce rfl rfl rfl rfl, Runs.loadBlockRepeating rfl rfl rfl rfl,
    Runs.loadBlockOnce hhl hde rfl rfl, Runs.loadBlockRepeating hhl hde rfl rfl⟩

/-! ### The block compares (rules R290 to R293) -/

/-- What `CPI`, `CPD`, `CPIR` and `CPDR` leave but for pc, where the pointer steps to `hl`. -/
def BlockCompared (s t : State) (hl : Word) : Prop :=
  t.hl = hl ∧ t.bc = s.bc - 1 ∧
    (t.flags.s = true ↔ 128 ≤ (s.main.a - s.readByte s.hl).toNat) ∧
    (t.flags.z = true ↔ s.main.a = s.readByte s.hl) ∧
    (t.flags.h = true ↔ s.main.a.toNat % 16 < (s.readByte s.hl).toNat % 16) ∧
    (t.flags.pv = true ↔ t.bc ≠ 0) ∧ t.flags.n = true ∧ t.flags.c = s.flags.c ∧
    OpenBits s t ∧ Frame { regs := [.b, .c, .h, .l], flags := true, bus := [.read s.hl] } s t

theorem BlockCompared.jump {s t : State} {hl : Word} (h : BlockCompared s t hl) (target : Word) :
    BlockCompared s (t.jump target) hl := h

@[simp] theorem State.compareBlock_pc (s : State) (delta : Word) : (s.compareBlock delta).pc = s.pc := by
  simp [State.compareBlock]

theorem State.compareBlock_openBits (s : State) (delta : Word) : OpenBits s (s.compareBlock delta) :=
  OpenBits.of_setFlags _ (by simp) rfl (Nat.le_refl _)

theorem State.compareBlock_frame (s : State) (delta : Word) :
    Frame { regs := [.b, .c, .h, .l], flags := true, bus := [.read s.hl] } s (s.compareBlock delta) :=
  (((s.afterRead_frame s.hl).setHL _).setBC _).setFlags _

/-- All the flags of a block compare; `State.compareBlock_spec` gives Z alone. -/
theorem State.compareBlock_flags (s : State) (delta : Word) :
    (s.compareBlock delta).flags =
      { s := (s.main.a - s.readByte s.hl).getLsbD 7, z := s.main.a - s.readByte s.hl == 0
        h := decide (s.main.a.toNat % 16 < (s.readByte s.hl).toNat % 16)
        pv := s.bc - 1 != 0, n := true, c := s.flags.c } := by
  simp [State.compareBlock]

theorem State.compareBlock_compared (s : State) (delta : Word) :
    BlockCompared s (s.compareBlock delta) (s.hl + delta) := by
  obtain ⟨hhl, hbc, -⟩ := s.compareBlock_spec delta
  have hflags := s.compareBlock_flags delta
  obtain ⟨hs, hz⟩ : SignZero (s.main.a - s.readByte s.hl) (s.compareBlock delta).flags := by
    rw [hflags]
    exact signZero_of rfl rfl
  refine ⟨hhl, hbc, hs, hz.trans sub_eq_zero, ?_, ?_, ?_, ?_, s.compareBlock_openBits delta,
    s.compareBlock_frame delta⟩
  all_goals simp [hflags, hbc]

theorem Runs.compareBlockOnce {i : Instr} {bytes : List Byte} {s : State} {delta hl : Word}
    (hhl : s.hl + delta = hl) (hbytes : encode i = bytes)
    (hexec : exec i s = .next ((s.compareBlock delta).advance 2)) :
    Runs i bytes s (fun t => t.pc = s.pc + 2 ∧ BlockCompared s t hl) := by
  subst hhl
  exact ⟨hbytes, _, hexec, by simp, (s.compareBlock_compared delta).jump _⟩

theorem Runs.compareBlockRepeating {i : Instr} {bytes : List Byte} {s : State} {delta hl : Word}
    (hhl : s.hl + delta = hl) (hbytes : encode i = bytes)
    (hexec : exec i s =
      .next ((s.compareBlock delta).advanceUnless (s.bc - 1 != 0 && s.main.a - s.readByte s.hl != 0))) :
    Runs i bytes s (fun t =>
      t.pc = (if t.bc = 0 ∨ s.main.a = s.readByte s.hl then s.pc + 2 else s.pc) ∧ BlockCompared s t hl) := by
  subst hhl
  rw [State.advanceUnless_eq_jump] at hexec
  obtain ⟨-, hbc, -⟩ := s.compareBlock_spec delta
  refine ⟨hbytes, _, hexec, ?_, (s.compareBlock_compared delta).jump _⟩
  simp only [State.jump_pc, State.jump_bc, State.compareBlock_pc, hbc, Bool.and_eq_true, bne_iff_ne, ne_eq, ← not_or,
    ite_not, sub_eq_zero]

/-- Settles O34: the four block compares are one iteration of the same compare, forward or backward. -/
theorem blockCompares : Obligations.BlockCompares := fun s =>
  have hhl := (sub_eq_add_neg s.hl 1).symm
  ⟨Runs.compareBlockOnce rfl rfl rfl, Runs.compareBlockRepeating rfl rfl rfl,
    Runs.compareBlockOnce hhl rfl rfl, Runs.compareBlockRepeating hhl rfl rfl⟩

end Sys2Proof.Machine

/-! SUPPORT. The 8-bit arithmetic and logic (obligations O35 to O40): what reading an operand leaves, one lemma for the
five operand forms of every accumulator operation, one rule for each operation on A, and one for each kind of operation
on an operand in place. -/

namespace Sys2Proof.Machine

/-! ### The flag computations (rules R322, R323) -/

theorem parity8_iff (v : Byte) : parity8 v = true ↔ ones v % 2 = 0 := by
  revert v; decide

/-- `logic8` (rule R322). -/
theorem logicFlags_spec (res : Byte) (h : Bool) : Logic8 res h (logicFlags res h) :=
  ⟨signZero_of rfl rfl, rfl, parity8_iff res, rfl, rfl⟩

/-- `inc8` (rule R323). -/
theorem inc8_spec (v : Byte) (old : Flags) : Inc8 v old (inc8 v old).1 (inc8 v old).2 :=
  ⟨BitVec.toNat_add v 1, signZero_of rfl rfl, beq_iff_eq, beq_iff_eq, rfl, rfl⟩

/-- `dec8` (rule R323). -/
theorem dec8_spec (v : Byte) (old : Flags) : Dec8 v old (dec8 v old).1 (dec8 v old).2 := by
  have hres : ((v - 1).toNat + 1) % 256 = v.toNat := by bv_omega
  exact ⟨hres, signZero_of rfl rfl, beq_iff_eq, beq_iff_eq, rfl, rfl⟩

/-! ### Reading an operand -/

/-- `u` is what the accesses `bus` of reading an operand leave of `s`. -/
structure OperandRead (s : State) (bus : List Access) (u : State) : Prop where
  main : u.main = s.main
  pc : u.pc = s.pc
  draws : u.draws = s.draws
  frame : Frame { bus := bus } s u

/-- A register or an immediate byte: no access. -/
theorem OperandRead.refl (s : State) : OperandRead s [] s := ⟨rfl, rfl, rfl, Frame.refl s⟩

/-- A byte of memory: one read. -/
theorem OperandRead.afterRead (s : State) (a : Word) : OperandRead s [.read a] (s.afterRead a) :=
  ⟨s.afterRead_main a, s.afterRead_pc a, s.afterRead_draws a, s.afterRead_frame a⟩

theorem Runs.imp {i : Instr} {bytes : List Byte} {s : State} {post post' : State → Prop} (h : Runs i bytes s post)
    (hpost : ∀ t, post t → post' t) : Runs i bytes s post' := by
  obtain ⟨hbytes, t, hexec, ht⟩ := h
  exact ⟨hbytes, t, hexec, hpost t ht⟩

/-- Five forms of which each reads its operand, runs the operation `op` on it and moves pc on. That they do (`hruns`) is
read off `encode` and `exec`, the same way for every operation. -/
theorem ForFiveForms.of_operation {y : BitVec 3} {onR : R8 → Instr} {onN : Byte → Instr} {onHl : Instr}
    {onIx onIy : Byte → Instr} {s : State} {post : Byte → Word → List Access → State → Prop}
    (op : State → Byte → State)
    (hpost : ∀ {bus u t} v len, OperandRead s bus u → t = (op u v).advance len → post v len bus t)
    (hruns : ForFiveForms y onR onN onHl onIx onIy s
        (fun v len bus t => t = (op (s.accesses bus) v).advance len) := by
      exact ⟨fun _ => ⟨rfl, _, rfl, rfl⟩, fun _ => ⟨rfl, _, rfl, rfl⟩, ⟨rfl, _, rfl, rfl⟩, fun _ => ⟨rfl, _, rfl, rfl⟩,
        fun _ => ⟨rfl, _, rfl, rfl⟩⟩) :
    ForFiveForms y onR onN onHl onIx onIy s post := by
  obtain ⟨hreg, himm, hhl, hix, hiy⟩ := hruns
  exact ⟨fun r => (hreg r).imp fun _ => hpost _ _ (.refl s), fun n => (himm n).imp fun _ => hpost _ _ (.refl s),
    hhl.imp fun _ => hpost _ _ (.afterRead s _), fun d => (hix d).imp fun _ => hpost _ _ (.afterRead s _),
    fun d => (hiy d).imp fun _ => hpost _ _ (.afterRead s _)⟩

/-! ### The operations on A, after the operand is read -/

section Accumulator

variable {s u t : State} {bus : List Access}

/-- Flags written and pc moved on. -/
theorem OperandRead.setFlags (hu : OperandRead s bus u) (fl : Flags) (len : Word)
    (ht : t = (u.setFlags fl).advance len) :
    t.pc = s.pc + len ∧ t.flags = fl ∧ OpenBits s t ∧ Frame { flags := true, bus := bus } s t := by
  subst ht
  exact ⟨by simp [hu.pc], by simp, OpenBits.of_setFlags fl hu.draws.ge rfl le_rfl, (hu.frame.setFlags fl).advance len⟩

/-- A and the flags written and pc moved on. -/
theorem OperandRead.setA_setFlags (hu : OperandRead s bus u) (res : Byte) (fl : Flags) (len : Word)
    (ht : t = ((u.setA res).setFlags fl).advance len) :
    t.pc = s.pc + len ∧ t.main.a = res ∧ t.flags = fl ∧ OpenBits s t ∧
      Frame { regs := [.a], flags := true, bus := bus } s t := by
  subst ht
  exact ⟨by simp [hu.pc], rfl, by simp, OpenBits.of_setFlags (u := u.setA res) fl hu.draws.ge rfl le_rfl,
    ((hu.frame.setReg8 .a res).setFlags fl).advance len⟩

/-- `ADD A` and `ADC A` (rules R320, R324 to R333). -/
theorem OperandRead.addToA (hu : OperandRead s bus u) (v : Byte) (cin : Bool) (len : Word)
    (ht : t = (u.addToA v cin).advance len) :
    t.pc = s.pc + len ∧ Sum8 s.main.a v cin t.main.a t.flags ∧ OpenBits s t ∧
      Frame { regs := [.a], flags := true, bus := bus } s t := by
  obtain ⟨hpc, ha, hflags, hrest⟩ := hu.setA_setFlags _ _ len ht
  rw [ha, hflags, hu.main]
  exact ⟨hpc, add8_spec s.main.a v cin, hrest⟩

/-- `SUB` and `SBC A` (rules R321, R349 to R358). -/
theorem OperandRead.subFromA (hu : OperandRead s bus u) (v : Byte) (cin : Bool) (len : Word)
    (ht : t = (u.subFromA v cin).advance len) :
    t.pc = s.pc + len ∧ Diff8 s.main.a v cin t.main.a t.flags ∧ OpenBits s t ∧
      Frame { regs := [.a], flags := true, bus := bus } s t := by
  obtain ⟨hpc, ha, hflags, hrest⟩ := hu.setA_setFlags _ _ len ht
  rw [ha, hflags, hu.main]
  exact ⟨hpc, sub8_spec s.main.a v cin, hrest⟩

/-- The difference that CP discards (rule R321). -/
theorem sub8_fst_of_no_borrow (a b : Byte) : (sub8 a b false).1 = a - b := by
  obtain ⟨hdiff, -⟩ := sub8_spec a b false
  generalize (sub8 a b false).1 = res at hdiff ⊢
  simp only [Bool.toNat_false, Nat.add_zero] at hdiff
  bv_omega

/-- `CP` (rules R321, R339 to R343). -/
theorem OperandRead.compareA (hu : OperandRead s bus u) (v : Byte) (len : Word)
    (ht : t = (u.compareA v).advance len) :
    t.pc = s.pc + len ∧ Diff8 s.main.a v false (s.main.a - v) t.flags ∧ OpenBits s t ∧
      Frame { flags := true, bus := bus } s t := by
  obtain ⟨hpc, hflags, hrest⟩ := hu.setFlags _ len ht
  rw [hflags, hu.main, ← sub8_fst_of_no_borrow]
  exact ⟨hpc, sub8_spec s.main.a v false, hrest⟩

/-- `AND`, `OR` and `XOR` (rules R322, R334 to R338, R344 to R348, R359 to R363): `bit` is what each bit of the result
is. -/
theorem OperandRead.logicToA (hu : OperandRead s bus u) {res : Byte} {bit : Nat → Bool}
    (hbit : ∀ k, res.getLsbD k = bit k) (h : Bool) (len : Word) (ht : t = (u.logicToA res h).advance len) :
    t.pc = s.pc + len ∧ (∀ k, t.main.a.getLsbD k = bit k) ∧ Logic8 t.main.a h t.flags ∧ OpenBits s t ∧
      Frame { regs := [.a], flags := true, bus := bus } s t := by
  obtain ⟨hpc, ha, hflags, hrest⟩ := hu.setA_setFlags _ _ len ht
  rw [ha, hflags]
  exact ⟨hpc, hbit, logicFlags_spec res h, hrest⟩

end Accumulator

/-- Settles O35: the five forms of each run `addToA`, which is `add8`. -/
theorem addAndAdcToA : Obligations.AddAndAdcToA := fun s =>
  ⟨.of_operation (·.addToA · false) fun v len hu => hu.addToA v false len,
    .of_operation (·.addToA · s.flags.c) fun v len hu => hu.addToA v s.flags.c len⟩

/-- Settles O36: the five forms of each run `subFromA`, which is `sub8`. -/
theorem subAndSbcFromA : Obligations.SubAndSbcFromA := fun s =>
  ⟨.of_operation (·.subFromA · false) fun v len hu => hu.subFromA v false len,
    .of_operation (·.subFromA · s.flags.c) fun v len hu => hu.subFromA v s.flags.c len⟩

/-- Settles O37: the five forms run `compareA`, which writes the flags of `sub8` alone. -/
theorem compareWithA : Obligations.CompareWithA := fun _ =>
  .of_operation State.compareA fun v len hu => hu.compareA v len

/-- Settles O38: the five forms run `logicToA` on the bitwise and, with H set. -/
theorem andWithA : Obligations.AndWithA := fun s =>
  .of_operation (fun u v => u.logicToA (s.main.a &&& v) true) fun _ len hu =>
    hu.logicToA (fun _ => BitVec.getLsbD_and) true len

/-- Settles O39: the five forms of each run `logicToA` on the bitwise or, or the exclusive or, with H reset. -/
theorem orAndXorWithA : Obligations.OrAndXorWithA := fun s =>
  ⟨.of_operation (fun u v => u.logicToA (s.main.a ||| v) false) fun _ len hu =>
      hu.logicToA (fun _ => BitVec.getLsbD_or) false len,
    .of_operation (fun u v => u.logicToA (s.main.a ^^^ v) false) fun _ len hu =>
      hu.logicToA (fun _ => BitVec.getLsbD_xor) false len⟩

/-! ### The operations on one operand in place -/

/-- A register and the flags replaced by `p`, of which the operation's rule `Rule` holds. -/
theorem Runs.updateReg8 {i : Instr} {bytes : List Byte} {s : State} {r : R8} {n : Word} {p : Byte × Flags}
    {Rule : Byte → Flags → Prop} (hrule : Rule p.1 p.2) (hbytes : encode i = bytes)
    (hexec : exec i s = .next ((s.updateReg8 r p).advance n)) :
    Runs i bytes s (fun t => t.pc = s.pc + n ∧ Rule (t.reg8 r) t.flags ∧ OpenBits s t ∧
      Frame { regs := [r], flags := true } s t) := by
  obtain ⟨hreg, hflags, -⟩ := s.updateReg8_spec r p
  refine ⟨hbytes, _, hexec, rfl, ?rule, OpenBits.of_setFlags (u := s.setReg8 r p.1) p.2 le_rfl rfl le_rfl,
    (((Frame.refl s).setReg8 r p.1).setFlags p.2).advance n⟩
  case rule =>
    change Rule ((s.updateReg8 r p).reg8 r) (s.updateReg8 r p).flags
    rwa [hreg, hflags]

/-- A byte of memory read and written back and the flags replaced by `p`, of which the operation's rule `Rule` holds
(rule R99). -/
theorem Runs.updateByte {i : Instr} {bytes : List Byte} {s : State} {a n : Word} {p : Byte × Flags}
    {Rule : Byte → Flags → Prop} (hrule : Rule p.1 p.2) (hbytes : encode i = bytes)
    (hexec : exec i s = .next ((s.updateByte a p).advance n)) :
    Runs i bytes s (fun t => t.pc = s.pc + n ∧ (∃ res, Rule res t.flags ∧ Stored s t a res ∧
      Frame { flags := true, mem := [a], bus := [.read a, .write a res] } s t) ∧ OpenBits s t) := by
  obtain ⟨hflags, -⟩ := s.updateByte_spec a p
  have hstored : Stored s (s.updateByte a p) a p.1 :=
    Stored.of_eq (s.afterRead_isRam a a) (State.setFlags_readByte _ _ _)
  have hframe := (((s.afterRead_frame a).writeByte a p.1).setFlags p.2).advance n
  refine ⟨hbytes, _, hexec, ?pc, ⟨p.1, ?rule, hstored, hframe⟩,
    OpenBits.of_setFlags (u := s.rewriteByte a p.1) p.2 ?draws rfl le_rfl⟩
  case pc => simp [State.updateByte]
  case rule => rwa [State.advance_flags, hflags]
  case draws => simp

/-- Settles O40: each form replaces its operand by `inc8` or `dec8` of it. -/
theorem incAndDec8 : Obligations.IncAndDec8 := fun s =>
  ⟨fun r => Runs.updateReg8 (inc8_spec (s.reg8 r) s.flags) rfl rfl,
    Runs.updateByte (inc8_spec _ s.flags) rfl rfl, fun _ => Runs.updateByte (inc8_spec _ s.flags) rfl rfl,
    fun _ => Runs.updateByte (inc8_spec _ s.flags) rfl rfl,
    fun r => Runs.updateReg8 (dec8_spec (s.reg8 r) s.flags) rfl rfl,
    Runs.updateByte (dec8_spec _ s.flags) rfl rfl, fun _ => Runs.updateByte (dec8_spec _ s.flags) rfl rfl,
    fun _ => Runs.updateByte (dec8_spec _ s.flags) rfl rfl⟩

end Sys2Proof.Machine

/-! SUPPORT. The accumulator and carry operations and the CPU control (obligations O42 and O43): what writing a
control bit adds to a frame, and what the complement and the negation of a byte are bit by bit and in integers. -/

namespace Sys2Proof.Machine

/-! ### CPL, NEG, CCF and SCF (rules R381 to R384) -/

/-- Each bit that CPL leaves in A (rule R381). -/
theorem getLsbD_complement (v : Byte) {k : Nat} (hk : k < 8) : (v ^^^ 0xFF).getLsbD k = !v.getLsbD k := by
  have hnot : v ^^^ 0xFF = ~~~v := BitVec.xor_allOnes
  rw [hnot, BitVec.getLsbD_not, decide_eq_true hk, Bool.true_and]

/-- The negation of a byte overflows for 80H alone (rule R382). -/
theorem Diff8.pv_of_negation {v res : Byte} {fl : Flags} (h : Diff8 0 v false res fl) :
    fl.pv = true ↔ v = 0x80 := by
  obtain ⟨-, -, -, hpv, -, -⟩ := h
  rw [hpv]
  clear hpv
  revert v
  decide

/-- The negation of a byte borrows for every byte but 0 (rule R382). -/
theorem Diff8.c_of_negation {v res : Byte} {fl : Flags} (h : Diff8 0 v false res fl) :
    fl.c = true ↔ v ≠ 0 := by
  obtain ⟨-, -, -, -, -, hc⟩ := h
  have hzero : v = 0 ↔ v.toNat = 0 := BitVec.toNat_eq
  rw [hc, Ne, hzero]
  exact Nat.pos_iff_ne_zero

/-- `NEG` (rule R382). -/
theorem State.negateA_spec {s t : State}
    (ht : t = ((s.setA (sub8 0 s.main.a false).1).setFlags (sub8 0 s.main.a false).2).advance 2) :
    t.pc = s.pc + 2 ∧ Diff8 0 s.main.a false t.main.a t.flags ∧ OpenBits s t ∧
      Frame { regs := [.a], flags := true } s t := by
  obtain ⟨hpc, ha, hflags, hrest⟩ := (OperandRead.refl s).setA_setFlags _ _ 2 ht
  rw [ha, hflags]
  exact ⟨hpc, sub8_spec 0 s.main.a false, hrest⟩

/-- Draws alone leave every frame as it is: the counter of draws is no part of it. -/
theorem Frame.drew {w : Writes} {s t : State} (h : Frame w s t) (n : Nat) : Frame w s (t.drew n) := h

/-- `CCF` (rule R383). H is the draw before those of bits 5 and 3. -/
theorem State.complementCarry_spec {s t : State}
    (ht : t = ((s.drew 1).setFlags { s.flags with h := s.drawnBit 0, n := false, c := !s.flags.c }).advance 1) :
    t.pc = s.pc + 1 ∧ t.flags = { s.flags with h := s.drawnBit 0, n := false, c := !s.flags.c } ∧
      Drawn s t (s.drawnBit 0) ∧ OpenBits s t ∧ Frame { flags := true } s t := by
  subst ht
  have hdrawn : s.draws < s.draws + 1 + 2 := by omega
  exact ⟨rfl, by simp, ⟨s.draws, le_rfl, hdrawn, rfl⟩,
    OpenBits.of_setFlags (u := s.drew 1) _ (Nat.le_succ _) rfl le_rfl, (((Frame.refl s).drew 1).setFlags _).advance 1⟩

/-- Settles O42: CPL and NEG write A and the flags, CCF and SCF the flags. -/
theorem accumulatorAndCarryOperations : Obligations.AccumulatorAndCarryOperations := by
  intro s
  have hs := OperandRead.refl s
  refine ⟨⟨rfl, _, rfl, ?cpl⟩, ⟨rfl, _, rfl, ?neg⟩, ⟨rfl, _, rfl, ?ccf⟩, ⟨rfl, _, rfl, ?scf⟩⟩
  case cpl =>
    obtain ⟨hpc, ha, hrest⟩ := hs.setA_setFlags _ _ 1 rfl
    exact ⟨hpc, fun k hk => ha ▸ getLsbD_complement s.main.a hk, hrest⟩
  case neg =>
    obtain ⟨hpc, hdiff, hrest⟩ := State.negateA_spec rfl
    exact ⟨hpc, hdiff, hdiff.pv_of_negation, hdiff.c_of_negation, hrest⟩
  case ccf =>
    obtain ⟨hpc, hflags, hdrawn, hrest⟩ := State.complementCarry_spec rfl
    rw [hflags]
    exact ⟨hpc, rfl, hdrawn, rfl, rfl, rfl, rfl, hrest⟩
  case scf => exact hs.setFlags _ 1 rfl

/-! ### The control bits (rules R385 to R391) -/

section FrameOfControlBit

variable {w : Writes} {s t : State} (h : Frame w s t)
include h

theorem Frame.setIff (one two : Bool) : Frame { w with iff := true } s (t.setIff one two) := by
  obtain ⟨hreg, hf, halt, hix, hiy, hsp, hi, hr, -, hrest⟩ := h
  exact ⟨hreg, hf, halt, hix, hiy, hsp, hi, hr, nofun, hrest⟩

theorem Frame.setIM (m : IntMode) : Frame { w with im := true } s (t.setIM m) := by
  obtain ⟨hreg, hf, halt, hix, hiy, hsp, hi, hr, hiff, -, hrest⟩ := h
  exact ⟨hreg, hf, halt, hix, hiy, hsp, hi, hr, hiff, nofun, hrest⟩

theorem Frame.setHalted (v : Bool) : Frame { w with halted := true } s (t.setHalted v) := by
  obtain ⟨hreg, hf, halt, hix, hiy, hsp, hi, hr, hiff, him, -, hrest⟩ := h
  exact ⟨hreg, hf, halt, hix, hiy, hsp, hi, hr, hiff, him, nofun, hrest⟩

theorem Frame.setEiDelay (v : Bool) : Frame { w with eiDelay := true } s (t.setEiDelay v) := by
  obtain ⟨hreg, hf, halt, hix, hiy, hsp, hi, hr, hiff, him, hhalted, -, hrest⟩ := h
  exact ⟨hreg, hf, halt, hix, hiy, hsp, hi, hr, hiff, him, hhalted, nofun, hrest⟩

end FrameOfControlBit

/-- `IM n`. -/
theorem Runs.setInterruptMode {i : Instr} {bytes : List Byte} {s : State} {m : IntMode} (hbytes : encode i = bytes)
    (hexec : exec i s = .next ((s.setIM m).advance 2)) :
    Runs i bytes s (fun t => t.pc = s.pc + 2 ∧ t.im = m ∧ Frame { im := true } s t) :=
  ⟨hbytes, _, hexec, rfl, rfl, ((Frame.refl s).setIM m).advance 2⟩

/-- Settles O43: each instruction writes the control bits of its rule and moves pc on. -/
theorem cpuControl : Obligations.CpuControl := by
  intro s
  have hs := Frame.refl s
  refine ⟨⟨rfl, _, rfl, rfl, ?nop⟩, ⟨rfl, _, rfl, rfl, rfl, ?halt⟩, ⟨rfl, _, rfl, rfl, rfl, rfl, ?di⟩,
    ⟨rfl, _, rfl, rfl, rfl, rfl, rfl, ?ei⟩, Runs.setInterruptMode rfl rfl, Runs.setInterruptMode rfl rfl,
    Runs.setInterruptMode rfl rfl⟩
  case nop => exact hs.advance 1
  case halt => exact (hs.setHalted true).advance 1
  case di => exact (hs.setIff false false).advance 1
  case ei => exact ((hs.setIff true true).setEiDelay true).advance 1

end Sys2Proof.Machine

/-! SUPPORT. The 16-bit arithmetic (obligations O44 to O46): one lemma for a word register and the flags written
together, whatever register the result goes to; INC and DEC write a word as the 16-bit loads do. -/

namespace Sys2Proof.Machine

/-! ### A result and its flags (rules R400 to R406) -/

/-- A word register and the flags replaced by `p`, of which the operation's rule `Rule` holds. `u` is the state with the
register written, `get` reads the register. -/
theorem Runs.sumWord {i : Instr} {bytes : List Byte} {s u : State} {get : State → Word} {p : Word × Flags} {n : Word}
    {w : Writes} {Rule : Word → Flags → Prop} (hrule : Rule p.1 p.2) (hframe : Frame w s u) (hpc : u.pc = s.pc)
    (hdraws : u.draws = s.draws) (hget : get ((u.setFlags p.2).advance n) = p.1) (hbytes : encode i = bytes)
    (hexec : exec i s = .next ((u.setFlags p.2).advance n)) :
    Runs i bytes s (fun t => t.pc = s.pc + n ∧ Rule (get t) t.flags ∧ OpenBits s t ∧
      Frame { w with flags := true } s t) := by
  refine ⟨hbytes, _, hexec, ?pc, ?rule, OpenBits.of_setFlags p.2 hdraws.ge rfl le_rfl,
    (hframe.setFlags p.2).advance n⟩
  case pc => simp [hpc]
  case rule => rwa [hget, State.advance_flags, State.setFlags_flags]

/-- `ADD HL,rr`, `ADC HL,rr` and `SBC HL,rr` (rules R402, R403, R406). -/
theorem Runs.sumToHl {i : Instr} {bytes : List Byte} {s : State} {p : Word × Flags} {n : Word}
    {Rule : Word → Flags → Prop} (hrule : Rule p.1 p.2) (hbytes : encode i = bytes)
    (hexec : exec i s = .next ((s.withSum16 p).advance n)) :
    Runs i bytes s (fun t => t.pc = s.pc + n ∧ Rule t.hl t.flags ∧ OpenBits s t ∧
      Frame { regs := [.h, .l], flags := true } s t) :=
  Runs.sumWord hrule ((Frame.refl s).setHL p.1) rfl rfl (s.setHL_hl p.1) hbytes hexec

/-- Settles O44: each form writes its register and the flags by the model's `add16`. -/
theorem addPair16 : Obligations.Add16 := fun s =>
  have hs := Frame.refl s
  ⟨fun p => Runs.sumToHl (add16_spec s.hl (s.pair p) s.flags) rfl rfl,
    fun p => Runs.sumWord (add16_spec s.ix (s.pairX p) s.flags)
      (hs.setIX (add16 s.ix (s.pairX p) s.flags).1) rfl rfl rfl rfl rfl,
    fun p => Runs.sumWord (add16_spec s.iy (s.pairY p) s.flags)
      (hs.setIY (add16 s.iy (s.pairY p) s.flags).1) rfl rfl rfl rfl rfl⟩

/-- Settles O45: each form writes HL and the flags by `adc16` or `sbc16`, with C as the carry in. -/
theorem addAndSubtractWithCarry16 : Obligations.AddAndSubtractWithCarry16 := fun s p =>
  ⟨Runs.sumToHl (adc16_spec s.hl (s.pair p) s.flags.c) rfl rfl,
    Runs.sumToHl (sbc16_spec s.hl (s.pair p) s.flags.c) rfl rfl⟩

/-! ### INC and DEC (rules R407 to R412) -/

/-- `INC rr` and `DEC rr` (rules R407, R410): `v` is what the pair becomes. -/
theorem Runs.updatePair {i : Instr} {bytes : List Byte} {s : State} {p : RR} {v n : Word} (hbytes : encode i = bytes)
    (hexec : exec i s = .next ((s.setPair p v).advance n)) :
    Runs i bytes s (fun t => t.pc = s.pc + n ∧ t.pair p = v ∧ Frame { regs := p.halves, sp := p == .sp } s t) :=
  Runs.loadWord ((Frame.refl s).setPair_of_bus p v) (s.setPair_pc p v) (s.setPair_pair p v) hbytes hexec

/-- Settles O46: each form writes one 16-bit register, one more or one less, and its frame keeps F. -/
theorem incAndDec16 : Obligations.IncAndDec16 := fun s _ =>
  have hs := Frame.refl s
  ⟨Runs.updatePair rfl rfl, Runs.loadWord (hs.setIX (s.ix + 1)) rfl rfl rfl rfl,
    Runs.loadWord (hs.setIY (s.iy + 1)) rfl rfl rfl rfl,
    Runs.updatePair rfl rfl, Runs.loadWord (hs.setIX (s.ix - 1)) rfl rfl rfl rfl,
    Runs.loadWord (hs.setIY (s.iy - 1)) rfl rfl rfl rfl⟩

end Sys2Proof.Machine

/-! SUPPORT. The rotates and shifts (obligations O47 to O51): the two ways bits move within a byte, from which the table
of rule R420 follows, one lemma for the CB-page forms of every kind, one for the four rotates of A, and one for the two
digit rotates. -/

namespace Sys2Proof.Machine

/-! ### The seven data movements (rule R420) -/

/-- Every bit one place up, and `b` into bit 0. -/
theorem getLsbD_movedUp (v : Byte) (b : Bool) {k : Nat} (hk : k < 8) :
    ((v <<< 1) ||| (if b then 1 else 0 : Byte)).getLsbD k = if k = 0 then b else v.getLsbD (k - 1) := by
  rw [BitVec.getLsbD_or, BitVec.getLsbD_shiftLeft, decide_eq_true hk]
  cases k with
  | zero => cases b <;> simp
  | succ k => cases b <;> simp

/-- Every bit one place down, and `b` into bit 7. -/
theorem getLsbD_movedDown (v : Byte) (b : Bool) {k : Nat} (hk : k < 8) :
    ((v >>> 1) ||| ((if b then 1 else 0 : Byte) <<< 7)).getLsbD k = if k = 7 then b else v.getLsbD (k + 1) := by
  have hin : ((if b then 1 else 0 : Byte) <<< 7).getLsbD k = (decide (k = 7) && b) := by
    revert b k; decide
  rw [BitVec.getLsbD_or, BitVec.getLsbD_ushiftRight, hin, Nat.add_comm 1 k]
  split
  next h => subst h; simp
  next h => simp [h]

/-- The sign bit that SRA keeps is bit 7 moved into bit 7. -/
theorem and_signBit (v : Byte) : v &&& (0x80 : Byte) = (if v.getLsbD 7 then 1 else 0 : Byte) <<< 7 := by
  revert v; decide

/-- `rot` (rule R420): each kind moves the byte up or down by one place, and the kinds differ in the bit that comes in.
-/
theorem rot_spec (kind : RotKind) (v : Byte) (cin : Bool) :
    Moved kind v cin (rot kind v cin).1 (rot kind v cin).2 := by
  cases kind with
  | rlc =>
    refine ⟨fun k hk => (getLsbD_movedUp v (v.getLsbD 7) hk).trans ?_, rfl⟩
    split
    next h => rw [h]
    next h => congr 1; omega
  | rrc =>
    refine ⟨fun k hk => (getLsbD_movedDown v (v.getLsbD 0) hk).trans ?_, rfl⟩
    split
    next h => rw [h]
    next h => congr 1; omega
  | rl => exact ⟨fun _ hk => getLsbD_movedUp v cin hk, rfl⟩
  | rr => exact ⟨fun _ hk => getLsbD_movedDown v cin hk, rfl⟩
  | sla =>
    refine ⟨fun k hk => ?_, rfl⟩
    change (v <<< 1).getLsbD k = _
    rw [← BitVec.or_zero (x := v <<< 1)]
    exact getLsbD_movedUp v false hk
  | sra =>
    refine ⟨fun k hk => ?_, rfl⟩
    change ((v >>> 1) ||| (v &&& (0x80 : Byte))).getLsbD k = _
    rw [and_signBit]
    exact getLsbD_movedDown v (v.getLsbD 7) hk
  | srl =>
    refine ⟨fun k hk => ?_, rfl⟩
    change (v >>> 1).getLsbD k = _
    rw [← BitVec.or_zero (x := v >>> 1)]
    exact getLsbD_movedDown v false hk

/-- Settles O47: the model's `rot` is the table of rule R420. -/
theorem rotateMovesEveryBit : Obligations.RotateMovesEveryBit := rot_spec

/-! ### The CB-page forms (rules R421, R423, R428 to R455) -/

theorem State.rotated_spec (s : State) (kind : RotKind) (v : Byte) :
    RotatedTo kind v s.flags (s.rotated kind v).1 (s.rotated kind v).2 :=
  ⟨rot_spec kind v s.flags.c, signZero_of rfl rfl, rfl, parity8_iff _, rfl⟩

/-- Four forms of which each replaces its operand by the byte rotated. That they do (`hruns`) is read off `encode` and
`exec`, the same way for every kind. -/
theorem ForCbForms.of_rotated (kind : RotKind) {y : BitVec 3} {onR : R8 → Instr} {onHl : Instr}
    {onIx onIy : Byte → Instr} {s : State}
    (hruns : ForCbForms 0 y onR onHl onIx onIy s
        (fun r t => t = (s.updateReg8 r (s.rotated kind (s.reg8 r))).advance 2)
        (fun a len t => t = (s.updateByte a (s.rotated kind (s.readByte a))).advance len) := by
      exact ⟨fun _ => ⟨rfl, _, rfl, rfl⟩, ⟨rfl, _, rfl, rfl⟩, fun _ => ⟨rfl, _, rfl, rfl⟩,
        fun _ => ⟨rfl, _, rfl, rfl⟩⟩) :
    ForCbForms 0 y onR onHl onIx onIy s
      (fun r t => t.pc = s.pc + 2 ∧ RotatedTo kind (s.reg8 r) s.flags (t.reg8 r) t.flags ∧
        OpenBits s t ∧ Frame { regs := [r], flags := true } s t)
      (fun a len t => t.pc = s.pc + len ∧
        (∃ res, RotatedTo kind (s.readByte a) s.flags res t.flags ∧ Stored s t a res ∧
          Frame { flags := true, mem := [a], bus := [.read a, .write a res] } s t) ∧ OpenBits s t) := by
  obtain ⟨hreg, ⟨hbytes, _, hexec, rfl⟩, hix, hiy⟩ := hruns
  refine ⟨fun r => ?reg, Runs.updateByte (s.rotated_spec kind _) hbytes hexec, fun d => ?ix, fun d => ?iy⟩
  case reg =>
    obtain ⟨hbytes, _, hexec, rfl⟩ := hreg r
    exact Runs.updateReg8 (s.rotated_spec kind _) hbytes hexec
  case ix =>
    obtain ⟨hbytes, _, hexec, rfl⟩ := hix d
    exact Runs.updateByte (s.rotated_spec kind _) hbytes hexec
  case iy =>
    obtain ⟨hbytes, _, hexec, rfl⟩ := hiy d
    exact Runs.updateByte (s.rotated_spec kind _) hbytes hexec

/-- Settles O48: the four forms of each replace their operand by `rot` of it. -/
theorem rotateLeft : Obligations.RotateLeft := fun _ => ⟨.of_rotated .rl, .of_rotated .rlc⟩

/-- Settles O49: the four forms of each replace their operand by `rot` of it. -/
theorem rotateRight : Obligations.RotateRight := fun _ => ⟨.of_rotated .rr, .of_rotated .rrc⟩

/-- Settles O50: the four forms of each replace their operand by `rot` of it. -/
theorem shifts : Obligations.Shifts := fun _ => ⟨.of_rotated .sla, .of_rotated .sra, .of_rotated .srl⟩

/-! ### RLCA, RLA, RRCA and RRA (rules R422, R424 to R427) -/

theorem Runs.rotateA {i : Instr} {bytes : List Byte} {s : State} (kind : RotKind) (hbytes : encode i = bytes)
    (hexec : exec i s = .next ((s.rotateA kind).advance 1)) :
    Runs i bytes s (fun t => t.pc = s.pc + 1 ∧ Moved kind s.main.a s.flags.c t.main.a t.flags.c ∧
      t.flags = { s.flags with h := false, n := false, c := t.flags.c } ∧ OpenBits s t ∧
        Frame { regs := [.a], flags := true } s t) := by
  obtain ⟨hpc, ha, hflags, hrest⟩ := (OperandRead.refl s).setA_setFlags
    (rot kind s.main.a s.flags.c).1 (accRotFlags s.flags (rot kind s.main.a s.flags.c).2) 1 rfl
  refine ⟨hbytes, _, hexec, hpc, ?moved, ?flags, hrest⟩
  case moved =>
    change Moved kind s.main.a s.flags.c (rot kind s.main.a s.flags.c).1 _
    rw [State.rotateA, hflags]
    exact rot_spec kind s.main.a s.flags.c
  case flags =>
    rw [State.rotateA, hflags]
    rfl

/-! ### RLD and RRD (rules R456, R457) -/

theorem toNat_shiftLeft_four (v : Byte) : (v <<< 4).toNat = v.toNat % 16 * 16 := by
  rw [BitVec.toNat_shiftLeft, Nat.shiftLeft_eq]; omega

theorem toNat_ushiftRight_four (v : Byte) : (v >>> 4).toNat = v.toNat / 16 := by
  rw [BitVec.toNat_ushiftRight, Nat.shiftRight_eq_div_pow]

theorem toNat_and_lowDigit (v : Byte) : (v &&& (0x0F : Byte)).toNat = v.toNat % 16 :=
  Nat.and_two_pow_sub_one_eq_mod v.toNat 4

theorem toNat_and_highDigit (v : Byte) : (v &&& (0xF0 : Byte)).toNat = v.toNat / 16 * 16 := by
  revert v; decide

/-- A high digit and a low digit put together. -/
theorem toNat_or_of_digits {x y : Byte} {high low : Nat} (hx : x.toNat = high * 16) (hy : y.toNat = low)
    (hlow : low < 16) : (x ||| y).toNat = high * 16 + low := by
  rw [BitVec.toNat_or, hx, hy, Nat.mul_comm]
  exact (Nat.two_pow_add_eq_or_of_lt (i := 4) hlow high).symm

theorem byteFlags_spec (v : Byte) (old : Flags) :
    SignZero v (byteFlags v old) ∧ ParityOf v (byteFlags v old) ∧ (byteFlags v old).h = false ∧
      (byteFlags v old).n = false ∧ (byteFlags v old).c = old.c :=
  ⟨signZero_of rfl rfl, parity8_iff v, rfl, rfl, rfl⟩

/-- The byte at HL replaced by one of value `stored`, and A by one of value `acc`, with its flags. -/
theorem Runs.rotateDigits {i : Instr} {bytes : List Byte} {s : State} {a m : Byte} {acc stored : Nat}
    (ha : a.toNat = acc) (hm : m.toNat = stored) (hbytes : encode i = bytes)
    (hexec : exec i s = .next ((((s.rewriteByte s.hl m).setA a).setFlags (byteFlags a s.flags)).advance 2)) :
    Runs i bytes s (fun t => t.pc = s.pc + 2 ∧ t.main.a.toNat = acc ∧ Stored s t s.hl (BitVec.ofNat 8 stored) ∧
      SignZero t.main.a t.flags ∧ ParityOf t.main.a t.flags ∧ t.flags.h = false ∧ t.flags.n = false ∧
      t.flags.c = s.flags.c ∧ OpenBits s t ∧
      Frame { regs := [.a], flags := true, mem := [s.hl],
              bus := [.read s.hl, .write s.hl (BitVec.ofNat 8 stored)] } s t) := by
  have hbyte : BitVec.ofNat 8 stored = m := by rw [← hm, BitVec.ofNat_toNat, BitVec.setWidth_eq]
  have hstored : Stored s ((s.rewriteByte s.hl m).setA a) s.hl m :=
    Stored.of_eq (s.afterRead_isRam s.hl s.hl) (State.setA_readByte _ _ _)
  have hopen : OpenBits s (((s.rewriteByte s.hl m).setA a).setFlags (byteFlags a s.flags)) :=
    OpenBits.of_setFlags _ (s.rewriteByte_draws s.hl m).ge rfl le_rfl
  have hframe := ((((s.afterRead_frame s.hl).writeByte s.hl m).setReg8 .a a).setFlags (byteFlags a s.flags)).advance 2
  obtain ⟨hsz, hparity, hh, hn, hc⟩ := byteFlags_spec a s.flags
  rw [hbyte]
  refine ⟨hbytes, _, hexec, ?pc, ha, hstored, ?flags⟩
  case pc => simp
  case flags =>
    rw [State.advance_flags, State.setFlags_flags]
    exact ⟨hsz, hparity, hh, hn, hc, hopen, hframe⟩

/-- Settles O51: the four rotates of A are `rot` on A, the two digit rotates recombine the digits of A and (HL). -/
theorem accumulatorAndDigitRotates : Obligations.AccumulatorAndDigitRotates := by
  intro s
  have hlow (v : Byte) : v.toNat % 16 < 16 := Nat.mod_lt _ (by decide)
  have hhigh (v : Byte) : v.toNat / 16 < 16 := Nat.div_lt_of_lt_mul v.isLt
  exact ⟨.rotateA .rlc rfl rfl, .rotateA .rl rfl rfl, .rotateA .rrc rfl rfl, .rotateA .rr rfl rfl,
    .rotateDigits (toNat_or_of_digits (toNat_and_highDigit _) (toNat_ushiftRight_four _) (hhigh _))
      (toNat_or_of_digits (toNat_shiftLeft_four _) (toNat_and_lowDigit _) (hlow _)) rfl rfl,
    .rotateDigits (toNat_or_of_digits (toNat_and_highDigit _) (toNat_and_lowDigit _) (hlow _))
      (toNat_or_of_digits (toNat_shiftLeft_four _) (toNat_ushiftRight_four _) (hhigh _)) rfl rfl⟩

end Sys2Proof.Machine

/-! SUPPORT. The round trip of the decoder (obligation O1), and what every instruction does to the control bits, the
alternate registers, the cells and F (obligations O7, O16, O17, O19 to O21). -/

namespace Sys2Proof.Machine

/-- Settles O1: `decode_encode`, instruction by instruction. -/
theorem decodeEncodeRoundTrip : Obligations.DecodeEncodeRoundTrip := fun _ rest hwf => decode_encode hwf rest

/-- Settles O7: every instruction answers a next state, and there is no fault to answer. -/
theorem everyInstructionCompletes : Obligations.EveryInstructionCompletes := by
  refine ⟨fun i s => ?_, fun _ f => nomatch f⟩
  obtain ⟨t, ht, -⟩ := exec_next_keepsInputs i s
  exact ⟨t, ht⟩

/-! ### What an operation makes of the control bits and the alternate registers -/

/-- From `s` to `t` the alternate registers, IFF1, IFF2, `ei_delay` and `halted` stay. An abbreviation, so that `simp`
takes its five equations one by one. -/
@[simp] abbrev State.KeepsControl (s t : State) : Prop :=
  t.alt = s.alt ∧ t.iff1 = s.iff1 ∧ t.iff2 = s.iff2 ∧ t.eiDelay = s.eiDelay ∧ t.halted = s.halted

@[simp] theorem State.setPair_keepsControl (s : State) (p : RR) (v : Word) : s.KeepsControl (s.setPair p v) := by
  cases p <;> simp [State.setPair]

@[simp] theorem State.setStackPair_keepsControl (s : State) (q : QQ) (v : Word) :
    s.KeepsControl (s.setStackPair q v) := by
  cases q <;> simp [State.setStackPair]

@[simp] theorem State.advanceUnless_keepsControl (s : State) (again : Bool) :
    s.KeepsControl (s.advanceUnless again) := by
  cases again <;> simp [State.advanceUnless]

@[simp] theorem State.addToA_keepsControl (s : State) (v : Byte) (cin : Bool) : s.KeepsControl (s.addToA v cin) := by
  simp [State.addToA]

@[simp] theorem State.subFromA_keepsControl (s : State) (v : Byte) (cin : Bool) :
    s.KeepsControl (s.subFromA v cin) := by
  simp [State.subFromA]

@[simp] theorem State.compareA_keepsControl (s : State) (v : Byte) : s.KeepsControl (s.compareA v) := by
  simp [State.compareA]

@[simp] theorem State.logicToA_keepsControl (s : State) (res : Byte) (h : Bool) :
    s.KeepsControl (s.logicToA res h) := by
  simp [State.logicToA]

@[simp] theorem State.updateReg8_keepsControl (s : State) (r : R8) (p : Byte × Flags) :
    s.KeepsControl (s.updateReg8 r p) := by
  simp [State.updateReg8]

@[simp] theorem State.updateByte_keepsControl (s : State) (a : Word) (p : Byte × Flags) :
    s.KeepsControl (s.updateByte a p) := by
  simp [State.updateByte]

@[simp] theorem State.rotateA_keepsControl (s : State) (kind : RotKind) : s.KeepsControl (s.rotateA kind) := by
  simp [State.rotateA]

@[simp] theorem State.testBit_keepsControl (s : State) (b : BitVec 3) (v : Byte) : s.KeepsControl (s.testBit b v) := by
  simp [State.testBit]

@[simp] theorem State.withSum16_keepsControl (s : State) (p : Word × Flags) : s.KeepsControl (s.withSum16 p) := by
  simp [State.withSum16]

@[simp] theorem State.loadBlock_keepsControl (s : State) (delta : Word) : s.KeepsControl (s.loadBlock delta) := by
  simp [State.loadBlock]

@[simp] theorem State.compareBlock_keepsControl (s : State) (delta : Word) : s.KeepsControl (s.compareBlock delta) := by
  simp [State.compareBlock]

@[simp] theorem State.setBlockIoFlags_keepsControl (s : State) : s.KeepsControl s.setBlockIoFlags := by
  simp [State.setBlockIoFlags]

@[simp] theorem State.inputBlock_keepsControl (s : State) (delta : Word) : s.KeepsControl (s.inputBlock delta) := by
  simp [State.inputBlock]

@[simp] theorem State.outputBlock_keepsControl (s : State) (delta : Word) : s.KeepsControl (s.outputBlock delta) := by
  simp [State.outputBlock]

/-! ### What an instruction makes of them (rules R386 to R388, R513) -/

/-- IFF1 and IFF2 after an instruction (rule R603). -/
def iffAfter (i : Instr) (s : State) : Bool × Bool :=
  match i with
  | .di => (false, false)
  | .ei => (true, true)
  | .retn => (s.iff2, s.iff2)
  | _ => (s.iff1, s.iff2)

/-- What an instruction leaves of the control bits and the alternate registers: `EI` alone sets the delay, `HALT` alone
the halt state, `EX AF,AF'` and `EXX` alone write an alternate register. -/
def ControlAfter (i : Instr) (s t : State) : Prop :=
  (t.iff1, t.iff2) = iffAfter i s ∧ t.eiDelay = (i == .ei || s.eiDelay) ∧ t.halted = (i == .halt || s.halted) ∧
    (i ≠ .exAf → i ≠ .exx → t.alt = s.alt)

theorem State.KeepsControl.advance {s t : State} (h : s.KeepsControl t) (n : Word) : s.KeepsControl (t.advance n) := h

/-- An instruction that is none of those `ControlAfter` names keeps them all. -/
theorem ControlAfter.of_kept {i : Instr} {s t : State} (h : s.KeepsControl t)
    (hiff : iffAfter i s = (s.iff1, s.iff2)) (hei : (i == .ei) = false) (hhalt : (i == .halt) = false) :
    ControlAfter i s t := by
  obtain ⟨halt, hone, htwo, hdelay, hhalted⟩ := h
  exact ⟨by rw [hiff, hone, htwo], by rw [hei, hdelay, Bool.false_or], by rw [hhalt, hhalted, Bool.false_or],
    fun _ _ => halt⟩

/-- The arms named are the instructions `ControlAfter` names, those whose meaning branches on the state, and block forms
that step down: there `simp` would evaluate the step `-1`, which is costly for the kernel to follow. Every other meaning
is a chain of the operations above. -/
theorem exec_next_control (i : Instr) (s : State) : ∃ t, exec i s = .next t ∧ ControlAfter i s t := by
  cases i with
  | di | ei | halt => exact ⟨_, rfl, rfl, rfl, rfl, fun _ _ => rfl⟩
  | retn => exact ⟨_, rfl, rfl, by simp, by simp, by simp⟩
  | exAf => exact ⟨_, rfl, rfl, rfl, rfl, fun h => absurd rfl h⟩
  | exx => exact ⟨_, rfl, rfl, rfl, rfl, fun _ h => absurd rfl h⟩
  | jpCondNn | jrCondE | callCondNn | retCond | djnz =>
    exact ⟨_, rfl, .of_kept (by split <;> simp) rfl rfl rfl⟩
  | ldd => exact ⟨_, rfl, .of_kept ((s.loadBlock_keepsControl _).advance 2) rfl rfl rfl⟩
  | cpd => exact ⟨_, rfl, .of_kept ((s.compareBlock_keepsControl _).advance 2) rfl rfl rfl⟩
  | ind => exact ⟨_, rfl, .of_kept ((s.inputBlock_keepsControl _).advance 2) rfl rfl rfl⟩
  | _ => exact ⟨_, rfl, .of_kept (by simp) rfl rfl rfl⟩

theorem exec_control {i : Instr} {s t : State} (h : exec i s = .next t) : ControlAfter i s t := by
  obtain ⟨u, hu, hcontrol⟩ := exec_next_control i s
  cases hu.symm.trans h
  exact hcontrol

theorem iffAfter_of_ne {i : Instr} (hdi : i ≠ .di) (hei : i ≠ .ei) (hretn : i ≠ .retn) (s : State) :
    iffAfter i s = (s.iff1, s.iff2) := by
  unfold iffAfter
  split
  · exact absurd rfl hdi
  · exact absurd rfl hei
  · exact absurd rfl hretn
  · rfl

/-- No instruction sets IFF1 without IFF2 (rule R603). -/
theorem iffAfter_ordered (i : Instr) {s : State} (h : s.iff1 = true → s.iff2 = true) :
    (iffAfter i s).1 = true → (iffAfter i s).2 = true := by
  unfold iffAfter
  split
  case h_4 => exact h
  all_goals simp

/-- Settles O17: the flip-flops are those of `iffAfter`, and no other arm touches the alternate registers. -/
theorem flipFlopAndAlternateSetWriters : Obligations.FlipFlopAndAlternateSetWriters := by
  intro i s t h
  obtain ⟨hiff, -, -, halt⟩ := exec_control h
  have hboth {one two : Bool} (heq : iffAfter i s = (one, two)) : t.iff1 = one ∧ t.iff2 = two :=
    Prod.mk.inj (hiff.trans heq)
  refine ⟨?di, ?ei, ?retn, fun hdi hei hretn => hboth (iffAfter_of_ne hdi hei hretn s), halt⟩
  case di => rintro rfl; exact hboth rfl
  case ei => rintro rfl; exact hboth rfl
  case retn => rintro rfl; exact hboth rfl

/-- Settles O16: the pending delay refuses the request, the step clears it, and `EI` alone sets it. -/
theorem eiDelaysTheMaskableInterrupt : Obligations.EiDelaysTheMaskableInterrupt := by
  refine ⟨fun s => ⟨_, rfl, rfl, rfl, rfl⟩, fun s t i hdelay hhalted hreset hnmi hedge hfetch => ?_⟩
  have hexecutes : s.Executes := ⟨hreset, ⟨hnmi, hedge⟩, by simp [hdelay], hhalted⟩
  have hstep : step s = exec i (s.sample.beginInstr i) := by rw [step_of_executes hexecutes, hfetch]
  refine ⟨hstep, fun hnext => ?_⟩
  obtain ⟨-, hei, -⟩ := exec_control (hstep.symm.trans hnext)
  simp [hei]

/-! ### The cells keep their canonical form (spec/20_memory.md section 1) -/

@[simp] theorem State.setPair_mem (s : State) (p : RR) (v : Word) : (s.setPair p v).mem = s.mem := by
  cases p <;> rfl

@[simp] theorem State.setStackPair_mem (s : State) (q : QQ) (v : Word) : (s.setStackPair q v).mem = s.mem := by
  cases q <;> rfl

@[simp] theorem State.advanceUnless_mem (s : State) (again : Bool) : (s.advanceUnless again).mem = s.mem := by
  cases again <;> rfl

@[simp] theorem State.addToA_mem (s : State) (v : Byte) (cin : Bool) : (s.addToA v cin).mem = s.mem := rfl
@[simp] theorem State.subFromA_mem (s : State) (v : Byte) (cin : Bool) : (s.subFromA v cin).mem = s.mem := rfl
@[simp] theorem State.compareA_mem (s : State) (v : Byte) : (s.compareA v).mem = s.mem := rfl
@[simp] theorem State.logicToA_mem (s : State) (res : Byte) (h : Bool) : (s.logicToA res h).mem = s.mem := rfl
@[simp] theorem State.updateReg8_mem (s : State) (r : R8) (p : Byte × Flags) : (s.updateReg8 r p).mem = s.mem := rfl
@[simp] theorem State.rotateA_mem (s : State) (kind : RotKind) : (s.rotateA kind).mem = s.mem := rfl
@[simp] theorem State.testBit_mem (s : State) (b : BitVec 3) (v : Byte) : (s.testBit b v).mem = s.mem := rfl
@[simp] theorem State.withSum16_mem (s : State) (p : Word × Flags) : (s.withSum16 p).mem = s.mem := rfl
@[simp] theorem State.setBlockIoFlags_mem (s : State) : s.setBlockIoFlags.mem = s.mem := rfl

@[simp] theorem State.compareBlock_mem (s : State) (delta : Word) : (s.compareBlock delta).mem = s.mem := by
  simp [State.compareBlock]

@[simp] theorem State.outputBlock_mem (s : State) (delta : Word) : (s.outputBlock delta).mem = s.mem := by
  simp [State.outputBlock]

section Canonical

variable {s : State} (hwf : Memory.wf s.mem = true)
include hwf

theorem State.wf_advance (n : Word) : Memory.wf (s.advance n).mem = true := hwf

theorem State.wf_advanceUnless (again : Bool) : Memory.wf (s.advanceUnless again).mem = true := by simpa using hwf

theorem State.wf_updateByte (a : Word) (p : Byte × Flags) : Memory.wf (s.updateByte a p).mem = true :=
  State.wf_rewriteByte a p.1 hwf

theorem State.wf_rewriteWord (a w : Word) : Memory.wf ((s.afterReadWord a).writeWord a w).mem = true :=
  State.wf_writeWord a w (by simpa using hwf)

theorem State.wf_loadBlock (delta : Word) : Memory.wf (s.loadBlock delta).mem = true := by
  have hread : Memory.wf (s.afterRead s.hl).mem = true := by simpa using hwf
  simpa only [State.loadBlock, State.setFlags_mem, State.setBC_mem, State.setDE_mem, State.setHL_mem] using
    State.wf_writeByte s.de (s.readByte s.hl) hread

theorem State.wf_compareBlock (delta : Word) : Memory.wf (s.compareBlock delta).mem = true := by simpa using hwf

theorem State.wf_inputBlock (delta : Word) : Memory.wf (s.inputBlock delta).mem = true :=
  State.wf_writeByte s.hl (s.portAnswer s.bc) (s := s.afterPortRead s.bc) hwf

/-- Every instruction keeps the canonical form: the arms named store, each by one of the stores above,
or branch on the state; `CPD` is named for its step `-1`, as in `exec_next_control`. -/
theorem exec_next_wf (i : Instr) : ∃ t, exec i s = .next t ∧ Memory.wf t.mem = true := by
  cases i with
  | ldAtHlR | ldAtHlN | ldAtIxdR | ldAtIydR | ldAtIxdN | ldAtIydN | ldAtBcA | ldAtDeA | ldAtNnA =>
    exact ⟨_, rfl, State.wf_advance (State.wf_writeByte _ _ hwf) _⟩
  | resAtHl | resAtIxd | resAtIyd | setAtHl | setAtIxd | setAtIyd =>
    exact ⟨_, rfl, State.wf_advance (State.wf_rewriteByte _ _ hwf) _⟩
  | rld | rrd =>
    refine ⟨_, rfl, ?_⟩
    simpa only [State.advance_mem, State.setFlags_mem, State.setA_mem] using State.wf_rewriteByte _ _ hwf
  | incAtHl | incAtIxd | incAtIyd | decAtHl | decAtIxd | decAtIyd | rlAtHl | rlAtIxd | rlAtIyd | rlcAtHl | rlcAtIxd
  | rlcAtIyd | rrAtHl | rrAtIxd | rrAtIyd | rrcAtHl | rrcAtIxd | rrcAtIyd | slaAtHl | slaAtIxd | slaAtIyd | sraAtHl
  | sraAtIxd | sraAtIyd | srlAtHl | srlAtIxd | srlAtIyd =>
    exact ⟨_, rfl, State.wf_advance (State.wf_updateByte hwf _ _) _⟩
  | ldAtNnHl | ldAtNnPair | ldAtNnIx | ldAtNnIy => exact ⟨_, rfl, State.wf_advance (State.wf_writeWord _ _ hwf) _⟩
  | exAtSpHl => exact ⟨_, rfl, by simpa only [State.advance_mem, State.setHL_mem] using State.wf_rewriteWord hwf _ _⟩
  | exAtSpIx => exact ⟨_, rfl, by simpa only [State.advance_mem, State.setIX_mem] using State.wf_rewriteWord hwf _ _⟩
  | exAtSpIy => exact ⟨_, rfl, by simpa only [State.advance_mem, State.setIY_mem] using State.wf_rewriteWord hwf _ _⟩
  | pushPair | pushIx | pushIy => exact ⟨_, rfl, State.wf_advance (State.wf_push16 _ hwf) _⟩
  | callNn | rst => exact ⟨_, rfl, State.wf_call _ _ hwf⟩
  | callCondNn =>
    refine ⟨_, rfl, ?_⟩
    split
    · exact State.wf_call _ _ hwf
    · exact hwf
  | ldi | ldd => exact ⟨_, rfl, State.wf_advance (State.wf_loadBlock hwf _) _⟩
  | cpd => exact ⟨_, rfl, State.wf_advance (State.wf_compareBlock hwf _) _⟩
  | ldir | lddr => exact ⟨_, rfl, State.wf_advanceUnless (State.wf_loadBlock hwf _) _⟩
  | ini | ind => exact ⟨_, rfl, State.wf_advance (State.wf_inputBlock hwf _) _⟩
  | inir | indr => exact ⟨_, rfl, State.wf_advanceUnless (State.wf_inputBlock hwf _) _⟩
  | jpCondNn | jrCondE | retCond | djnz => exact ⟨_, rfl, by split <;> simpa using hwf⟩
  | _ => exact ⟨_, rfl, by simpa using hwf⟩

end Canonical

theorem exec_wf {i : Instr} {s t : State} (hwf : Memory.wf s.mem = true) (h : exec i s = .next t) :
    Memory.wf t.mem = true := by
  obtain ⟨u, hu, hkept⟩ := exec_next_wf hwf i
  cases hu.symm.trans h
  exact hkept

/-! ### The invariant of a run, step by step (rules R602 to R604, R611) -/

theorem State.inv_cpuReset {s : State} (h : s.Inv) : s.cpuReset.Inv := by
  obtain ⟨hwf, -⟩ := h
  exact ⟨hwf, nofun, nofun, nofun⟩

/-- Entering a handler stores pc and clears the control bits the invariant speaks of, so it holds. -/
theorem State.inv_of_cleared {s : State} (hwf : Memory.wf s.mem = true) (hiff : s.iff1 = false)
    (hdelay : s.eiDelay = false) : s.Inv :=
  ⟨hwf, by simp [hiff], by simp [hdelay], fun _ => hdelay⟩

theorem State.inv_acceptNmi {s : State} (h : s.Inv) : s.acceptNmi.Inv := by
  obtain ⟨hwf, -⟩ := h
  exact State.inv_of_cleared (State.wf_enterHandler _ (by simpa using hwf)) (by simp [State.acceptNmi])
    (by simp [State.acceptNmi])

@[simp] theorem State.maskInt_mem (s : State) : s.maskInt.mem = s.mem := by simp [State.maskInt]
@[simp] theorem State.maskInt_iff1 (s : State) : s.maskInt.iff1 = false := by simp [State.maskInt]
@[simp] theorem State.maskInt_eiDelay (s : State) : s.maskInt.eiDelay = s.eiDelay := by simp [State.maskInt]
@[simp] theorem State.enterVector_iff1 (s : State) (a : Word) : (s.enterVector a).iff1 = s.iff1 := by
  simp [State.enterVector]
@[simp] theorem State.enterVector_eiDelay (s : State) (a : Word) : (s.enterVector a).eiDelay = s.eiDelay := by
  simp [State.enterVector]

theorem State.inv_acceptInt {s t : State} {bus : Byte} (h : s.Inv) (hdelay : s.eiDelay = false)
    (hint : s.acceptInt bus = .next t) : t.Inv := by
  obtain ⟨hwf, -⟩ := h
  have hmask : Memory.wf s.maskInt.mem = true := by simpa using hwf
  rcases acceptInt_next hint with ⟨handler, rfl⟩ | rfl
  · exact State.inv_of_cleared (State.wf_enterHandler _ hmask) (by simp) (by simpa using hdelay)
  · exact State.inv_of_cleared (State.wf_enterVector _ hmask) (by simp) (by simpa using hdelay)

theorem State.inv_idle {s : State} (h : s.Inv) : s.idle.Inv := by
  obtain ⟨hwf, hiff, hdelay, hhalted⟩ := h
  simpa [State.Inv, State.idle] using And.intro hwf ⟨hiff, hdelay, hhalted⟩

/-- An instruction begins with no delay pending in a CPU that is not halted, so a delay afterwards is that of `EI` and a
halt that of `HALT`. -/
theorem State.inv_exec {i : Instr} {s t : State} (h : s.Inv) (hdelay : s.eiDelay = false) (hhalted : s.halted = false)
    (hexec : exec i s = .next t) : t.Inv := by
  obtain ⟨hwf, hiff, -, -⟩ := h
  obtain ⟨hflipflops, hei, hhalt, -⟩ := exec_control hexec
  rw [hdelay, Bool.or_false] at hei
  rw [hhalted, Bool.or_false] at hhalt
  refine ⟨exec_wf hwf hexec, ?iff, fun hpending => ?delay, fun hstopped => ?halt⟩
  case iff =>
    have hordered := iffAfter_ordered i hiff
    rwa [← hflipflops] at hordered
  case delay =>
    obtain rfl : i = .ei := by simpa [hei] using hpending
    exact congrArg Prod.fst hflipflops
  case halt =>
    obtain rfl : i = .halt := by simpa [hhalt] using hstopped
    exact hei

/-- Settles O19: each branch of the step keeps the invariant. -/
theorem invariantKeptByEveryStep : Obligations.InvariantKeptByEveryStep := by
  intro s t h hstep
  have hsample : s.sample.Inv := h
  rcases step_next_cases hstep with ⟨-, rfl⟩ | ⟨-, rfl⟩ | ⟨htakes, hint⟩ | ⟨-, rfl⟩ | ⟨hhalted, i, -, hexec⟩
  · exact State.inv_cpuReset hsample
  · exact State.inv_acceptNmi hsample
  · obtain ⟨-, -, hdelay⟩ := s.sample_takesInt_iff.mp htakes
    exact State.inv_acceptInt hsample hdelay hint
  · exact State.inv_idle hsample
  · refine State.inv_exec ?_ (State.beginInstr_eiDelay _ i) (by simpa using hhalted) hexec
    obtain ⟨hwf, hiff, -⟩ := hsample
    exact ⟨by simpa using hwf, by simpa using hiff, by simp, by simp⟩

/-- Settles O20: no cell is listed after reset, and every control bit is 0. -/
theorem resetStateMeetsInvariant : Obligations.ResetStateMeetsInvariant :=
  State.inv_of_cleared State.wf_reset rfl rfl

/-! ### What an instruction makes of F (rule R39, D5) -/

/-- Bits 5 and 3 of F in `t` are two neighbouring draws made between `s` and `t`. -/
def State.DrawsOpenBits (s t : State) : Prop :=
  ∃ k, s.draws ≤ k ∧ k + 1 < t.draws ∧ t.main.f.getLsbD 5 = Config.freeBit k ∧
    t.main.f.getLsbD 3 = Config.freeBit (k + 1)

/-- Flags written after any number of draws. -/
theorem State.DrawsOpenBits.of_setFlags {s u : State} {fl : Flags} (h : s.draws ≤ u.draws) :
    s.DrawsOpenBits (u.setFlags fl) :=
  ⟨u.draws, h, by simp, Flags.pack_bit5 _ _ _, Flags.pack_bit3 _ _ _⟩

theorem State.DrawsOpenBits.advance {s t : State} (h : s.DrawsOpenBits t) (n : Word) :
    s.DrawsOpenBits (t.advance n) := h

theorem State.DrawsOpenBits.advanceUnless {s t : State} (h : s.DrawsOpenBits t) (again : Bool) :
    s.DrawsOpenBits (t.advanceUnless again) := by
  cases again <;> exact h

@[simp] theorem State.setPair_f (s : State) (p : RR) (v : Word) : (s.setPair p v).main.f = s.main.f := by
  cases p <;> rfl

theorem State.loadBlock_drawsOpenBits (s : State) (delta : Word) : s.DrawsOpenBits (s.loadBlock delta) :=
  .of_setFlags (by simp)

theorem State.compareBlock_drawsOpenBits (s : State) (delta : Word) : s.DrawsOpenBits (s.compareBlock delta) :=
  .of_setFlags (by simp)

theorem State.inputBlock_drawsOpenBits (s : State) (delta : Word) : s.DrawsOpenBits (s.inputBlock delta) :=
  .of_setFlags (by simp)

theorem State.outputBlock_drawsOpenBits (s : State) (delta : Word) : s.DrawsOpenBits (s.outputBlock delta) :=
  .of_setFlags (by simp)

/-- Every instruction that writes a named flag ends in `setFlags`. The arms named are those that write none, `POP qq`
and `EX AF,AF'`, and the block forms, which step up or down. -/
theorem exec_next_flags (i : Instr) (s : State) : ∃ t, exec i s = .next t ∧
    (t.main.f = s.main.f ∨ i = .popPair .af ∨ i = .exAf ∨ s.DrawsOpenBits t) := by
  cases i with
  | ldRR | ldRN | ldRAtHl | ldAtHlR | ldAtHlN | ldRAtIxd | ldRAtIyd | ldAtIxdR | ldAtIydR | ldAtIxdN | ldAtIydN
  | ldAAtBc | ldAAtDe | ldAAtNn | ldAtBcA | ldAtDeA | ldAtNnA | ldIA | ldRefreshA | ldPairNn | ldIxNn | ldIyNn
  | ldHlAtNn | ldPairAtNn | ldIxAtNn | ldIyAtNn | ldAtNnHl | ldAtNnPair | ldAtNnIx | ldAtNnIy | ldSpHl | ldSpIx
  | ldSpIy | pushPair | pushIx | pushIy | popIx | popIy | exDeHl | exx | exAtSpHl | exAtSpIx | exAtSpIy | nop | halt
  | di | ei | im0 | im1 | im2 | incPair | incIx | incIy | decPair | decIx | decIy | resR | resAtHl | resAtIxd
  | resAtIyd | setR | setAtHl | setAtIxd | setAtIyd | jpNn | jrE | jpHl | jpIx | jpIy | callNn | ret | reti | retn
  | rst | inAN | outNA | outCR => exact ⟨_, rfl, .inl (by simp)⟩
  | jpCondNn | jrCondE | callCondNn | retCond | djnz => exact ⟨_, rfl, .inl (by split <;> simp)⟩
  | popPair q =>
    cases q with
    | af => exact ⟨_, rfl, .inr (.inl rfl)⟩
    | bc | de | hl => exact ⟨_, rfl, .inl (by simp [State.setStackPair])⟩
  | exAf => exact ⟨_, rfl, .inr (.inr (.inl rfl))⟩
  | ldi | ldd => exact ⟨_, rfl, .inr (.inr (.inr ((s.loadBlock_drawsOpenBits _).advance 2)))⟩
  | ldir | lddr => exact ⟨_, rfl, .inr (.inr (.inr ((s.loadBlock_drawsOpenBits _).advanceUnless _)))⟩
  | cpi | cpd => exact ⟨_, rfl, .inr (.inr (.inr ((s.compareBlock_drawsOpenBits _).advance 2)))⟩
  | cpir | cpdr => exact ⟨_, rfl, .inr (.inr (.inr ((s.compareBlock_drawsOpenBits _).advanceUnless _)))⟩
  | ini | ind => exact ⟨_, rfl, .inr (.inr (.inr ((s.inputBlock_drawsOpenBits _).advance 2)))⟩
  | inir | indr => exact ⟨_, rfl, .inr (.inr (.inr ((s.inputBlock_drawsOpenBits _).advanceUnless _)))⟩
  | outi | outd => exact ⟨_, rfl, .inr (.inr (.inr ((s.outputBlock_drawsOpenBits _).advance 2)))⟩
  | otir | otdr => exact ⟨_, rfl, .inr (.inr (.inr ((s.outputBlock_drawsOpenBits _).advanceUnless _)))⟩
  | _ => exact ⟨_, rfl, .inr (.inr (.inr (State.DrawsOpenBits.advance (.of_setFlags (by simp)) _)))⟩

/-- Settles O21: what `exec_next_flags` says of the one state the instruction answers. -/
theorem flagWritersLeaveUnnamedBitsDrawn : Obligations.FlagWritersLeaveUnnamedBitsDrawn := by
  intro i s t h
  obtain ⟨u, hu, hflags⟩ := exec_next_flags i s
  cases hu.symm.trans h
  exact hflags

end Sys2Proof.Machine

/-! SUPPORT. The steps that begin with no instruction, and the start of one that does (obligations O5, O9 to O15, O22):
what accesses after other updates add to a frame, then one lemma for every entry to a handler and one for the reads of a
fetch. -/

namespace Sys2Proof.Machine

/-! ### Accesses after other updates -/

/-- A device answers from the record alone, and nothing else is recorded, so what a read adds depends on no cell. -/
theorem State.afterRead_ioTrace_eq {s t : State} (a : Word) (hmap : t.memMap = s.memMap)
    (htrace : t.ioTrace = s.ioTrace) : (t.afterRead a).ioTrace = (s.afterRead a).ioTrace := by
  have hkind : t.kindAt a = s.kindAt a := by simp only [State.kindAt, State.regionAt, hmap]
  cases hdev : s.isDevice a with
  | true =>
    have hdevice : s.kindAt a = .device := by simpa [State.isDevice] using hdev
    have hread : t.readByte a = s.readByte a := by
      rw [State.readByte_of_device hdevice, State.readByte_of_device (hkind.trans hdevice), htrace]
    exact State.afterRead_ioTrace_congr a hread hmap htrace
  | false =>
    have hdev' : t.isDevice a = false := by rwa [State.isDevice, hkind]
    rwa [State.afterRead_eq hdev, State.afterRead_eq hdev']

section FrameOfAccess

variable {w : Writes} {s t : State} (h : Frame w s t)
include h

theorem Frame.afterRead (a : Word) : Frame { w with bus := w.bus ++ [.read a] } s (t.afterRead a) := by
  obtain ⟨hreg, hf, halt, hix, hiy, hsp, hi, hr, hiff, him, hhalted, hei, hnmi, hpins, hcell, -, htrace, hport, hmap,
    hrm, hbio⟩ := h
  apply Frame.of_cells
  case hreg => exact fun r hout => (congrArg (Bank.get · r) (t.afterRead_main a)).trans (hreg r hout)
  case htrace =>
    rw [State.accesses_append]
    exact State.afterRead_ioTrace_eq a (by simp [hmap]) htrace
  all_goals simpa

theorem Frame.push16 (v : Word) :
    Frame { w with sp := true, mem := w.mem ++ [t.sp - 1] ++ [t.sp - 2],
                   bus := w.bus ++ [.write (t.sp - 1) (hiByte v)] ++ [.write (t.sp - 2) (loByte v)] }
      s (t.push16 v) := by
  rw [State.push16_eq]
  exact ((h.setSP _).writeByte _ _).writeByte _ _

theorem Frame.countFetches (n : Byte) : Frame { w with r := true } s (t.countFetches n) := by
  obtain ⟨hreg, hf, halt, hix, hiy, hsp, hi, -, hrest⟩ := h
  unfold State.countFetches
  split <;> exact ⟨hreg, hf, halt, hix, hiy, hsp, hi, nofun, hrest⟩

theorem Frame.jump (target : Word) : Frame w s (t.jump target) := h

end FrameOfAccess

/-- Reads one after the other. -/
theorem Frame.reads {s : State} (addrs : List Word) : ∀ {w : Writes} {t : State}, Frame w s t →
    Frame { w with bus := w.bus ++ addrs.map .read } s (t.accesses (addrs.map .read)) := by
  induction addrs with
  | nil => intro w t h; simpa using h
  | cons a rest ih => intro w t h; simpa using ih (h.afterRead a)

/-! ### The inputs of a step (rules R602, R617) -/

/-- With no edge of the non-maskable request, taking the inputs writes nothing but the inputs to come. -/
theorem State.sample_frame_of_no_edge {s : State} (hedge : s.sampledPins.nmiEdge = false) :
    Frame { pins := true } s s.sample := by
  obtain ⟨hreg, hf, halt, hix, hiy, hsp, hi, hr, hiff, him, hhalted, hei, -, hrest⟩ := s.sample_frame
  exact ⟨hreg, hf, halt, hix, hiy, hsp, hi, hr, hiff, him, hhalted, hei, fun _ => by simp [hedge], hrest⟩

/-! ### What a push and the reads after it depend on -/

/-- `u` has the cells, the map and the record of `s`: every read of memory answers alike. -/
structure SameMemory (s u : State) : Prop where
  mem : u.mem = s.mem
  memMap : u.memMap = s.memMap
  ioTrace : u.ioTrace = s.ioTrace

section SameMemory

variable {s u : State} (h : SameMemory s u)
include h

theorem SameMemory.readByte (a : Word) : u.readByte a = s.readByte a :=
  State.readByte_congr h.mem h.memMap h.ioTrace a

theorem SameMemory.isRam (a : Word) : u.isRam a = s.isRam a := by
  simp only [State.isRam, State.kindAt, State.onWriteAt, State.regionAt, h.memMap]

theorem SameMemory.afterRead (a : Word) : SameMemory (s.afterRead a) (u.afterRead a) :=
  ⟨by simp [h.mem], by simp [h.memMap], State.afterRead_ioTrace_eq a h.memMap h.ioTrace⟩

theorem SameMemory.writeByte (a : Word) (v : Byte) : SameMemory (s.writeByte a v) (u.writeByte a v) := by
  have heffect : u.onWriteAt a = s.onWriteAt a := by simp only [State.onWriteAt, State.regionAt, h.memMap]
  exact ⟨by simp only [State.writeByte_mem, heffect, h.mem], by simp [h.memMap],
    State.writeByte_ioTrace_congr a v h.memMap h.ioTrace⟩

/-- A push is its two stores with SP moved (rule R95). -/
theorem SameMemory.push16 (hsp : u.sp = s.sp) (v : Word) : SameMemory (s.accesses (pushWrites s.sp v)) (u.push16 v) := by
  have hmoved : SameMemory s (u.setSP (s.sp - 2)) := ⟨h.mem, h.memMap, h.ioTrace⟩
  rw [State.push16_eq, hsp]
  exact (hmoved.writeByte _ _).writeByte _ _

theorem SameMemory.holdsWord {a w : Word} (hword : HoldsWord u a w) : HoldsWord s a w := by
  unfold HoldsWord at hword ⊢
  rwa [h.readByte, (h.afterRead a).readByte] at hword

/-- A push on a state with the same SP and the same memory. -/
theorem SameMemory.pushed (hsp : u.sp = s.sp) {t : State} {w : Word} (hpushed : Pushed u t w) : Pushed s t w := by
  unfold Pushed Stored at hpushed ⊢
  rwa [hsp, h.isRam, h.isRam] at hpushed

end SameMemory

/-- A read of RAM answers alike after a read that a device sees. -/
theorem Stored.afterRead {s t : State} {x : Word} {v : Byte} (h : Stored s t x v) (hmap : t.memMap = s.memMap)
    (a : Word) : Stored s (t.afterRead a) x v := by
  intro hram
  have hdev : t.isDevice x = false := by
    have hdev := State.isDevice_of_isRam hram
    simpa only [State.isDevice, State.kindAt, State.regionAt, hmap] using hdev
  rw [State.readByte_afterRead a hdev]
  exact h hram

theorem Pushed.afterRead {s t : State} {w : Word} (h : Pushed s t w) (hmap : t.memMap = s.memMap) (a : Word) :
    Pushed s (t.afterRead a) w := by
  obtain ⟨hsp, hhi, hlo⟩ := h
  exact ⟨by rw [State.afterRead_sp, hsp], hhi.afterRead hmap a, hlo.afterRead hmap a⟩

theorem Pushed.jump {s t : State} {w : Word} (h : Pushed s t w) (target : Word) : Pushed s (t.jump target) w := h

/-! ### Entering a handler (rule R605) -/

theorem State.enterVector_eq (s : State) (entry : Word) :
    s.enterVector entry = ((s.push16 s.pc).afterReadWord entry).jump ((s.push16 s.pc).readWord entry) := rfl

/-- `u` is `s` but for control bits, R and the inputs, which `w` names: what a handler is entered from. -/
structure EntersFrom (s : State) (w : Writes) (u : State) : Prop where
  frame : Frame w s u
  memory : SameMemory s u
  sp : u.sp = s.sp
  pc : u.pc = s.pc
  noMem : w.mem = []
  noBus : w.bus = []

section Entry

variable {s u : State} {w : Writes} (h : EntersFrom s w u)
include h

theorem EntersFrom.push16_frame :
    Frame { w with sp := true, mem := stackCells s, bus := pushWrites s.sp s.pc } s (u.push16 s.pc) := by
  have hpush := h.frame.push16 s.pc
  rw [h.sp, h.noMem, h.noBus] at hpush
  exact hpush

/-- A handler at a fixed address (rules R606, R607, R609). -/
theorem EntersFrom.enterHandler (handler : Word) :
    Pushed s (u.enterHandler handler) s.pc ∧
      Frame { w with sp := true, mem := stackCells s, bus := pushWrites s.sp s.pc } s (u.enterHandler handler) := by
  rw [State.enterHandler, h.pc]
  exact ⟨h.memory.pushed h.sp (u.push16_pushed s.pc), h.push16_frame.jump handler⟩

/-- A handler whose address stands in memory, read after the push (rule R608). -/
theorem EntersFrom.enterVector (entry : Word) :
    HoldsWord (s.accesses (pushWrites s.sp s.pc)) entry (u.enterVector entry).pc ∧
      Pushed s (u.enterVector entry) s.pc ∧
      Frame { w with sp := true, mem := stackCells s, bus := pushWrites s.sp s.pc ++ wordReads entry } s
        (u.enterVector entry) := by
  have hpushed : Pushed s (u.push16 s.pc) s.pc := h.memory.pushed h.sp (u.push16_pushed s.pc)
  have hmap : (u.push16 s.pc).memMap = s.memMap := by rw [State.push16_memMap, h.memory.memMap]
  have hword := (h.memory.push16 h.sp s.pc).holdsWord (HoldsWord.of_readWord _ entry)
  rw [State.enterVector_eq, h.pc]
  refine ⟨hword, Pushed.jump ?_ _, ((h.push16_frame.afterRead entry).afterRead (entry + 1)).jump _⟩
  exact (hpushed.afterRead hmap entry).afterRead (by rw [State.afterRead_memMap, hmap]) (entry + 1)

end Entry

/-! ### The non-maskable interrupt (rule R609) -/

/-- What acceptance of the non-maskable interrupt does before control moves. -/
def State.maskNmi (s : State) : State :=
  ((({ s with nmiPending := false }.setHalted false).setEiDelay false).setIff false s.iff2).countFetches 1

theorem State.acceptNmi_eq (s : State) : s.acceptNmi = s.maskNmi.enterHandler 0x0066 := rfl

theorem Frame.clearNmiPending {w : Writes} {s t : State} (h : Frame w s t) :
    Frame { w with nmiPending := true } s { t with nmiPending := false } := by
  obtain ⟨hreg, hf, halt, hix, hiy, hsp, hi, hr, hiff, him, hhalted, hei, -, hrest⟩ := h
  exact ⟨hreg, hf, halt, hix, hiy, hsp, hi, hr, hiff, him, hhalted, hei, nofun, hrest⟩

theorem State.entersFrom_maskNmi (s : State) :
    EntersFrom s { r := true, iff := true, halted := true, eiDelay := true, nmiPending := true, pins := true }
      s.sample.maskNmi where
  frame := ((((s.sample_frame.clearNmiPending).setHalted false).setEiDelay false).setIff false s.iff2).countFetches 1
  memory := ⟨by simp [State.maskNmi], by simp [State.maskNmi], by simp [State.maskNmi]⟩
  sp := by simp [State.maskNmi]
  pc := by simp [State.maskNmi]
  noMem := rfl
  noBus := rfl

theorem State.countFetches_of_draw {s : State} (h : s.rModel = .draw) (n : Byte) : s.countFetches n = s := by
  simp [State.countFetches, h]

theorem State.maskNmi_r_of_draw {s : State} (h : s.rModel = .draw) : s.maskNmi.r = s.r := by
  rw [State.maskNmi, State.countFetches_of_draw (by simpa using h)]
  rfl

/-- Settles O11: the step accepts the interrupt, and a handler entry is a push and a jump. -/
theorem nonMaskableInterruptEntry : Obligations.NonMaskableInterruptEntry := by
  intro s hreset hwhy
  have hnmi : s.sample.nmiPending = true := by simpa using hwhy
  obtain ⟨hpushed, hframe⟩ := s.entersFrom_maskNmi.enterHandler 0x0066
  refine ⟨_, step_eq_acceptNmi hreset hnmi, ?_⟩
  rw [State.acceptNmi_eq]
  refine ⟨State.enterHandler_pc _ _, ?_, ?_, ?_, ?_, ?_, hpushed, fun hmodel => ?r, hframe⟩
  case r => rw [State.enterHandler_r, State.maskNmi_r_of_draw (s := s.sample) hmodel, State.sample_r]
  all_goals simp [State.maskNmi]

/-! ### The maskable interrupt (rules R605 to R608) -/

/-- What acceptance of a maskable interrupt does before control moves, after the inputs of the step are taken. -/
theorem State.entersFrom_maskInt {s : State} (hedge : s.sampledPins.nmiEdge = false) :
    EntersFrom s { r := true, iff := true, halted := true, pins := true } s.sample.maskInt where
  frame := (((State.sample_frame_of_no_edge hedge).setHalted false).setIff false false).countFetches 1
  memory := ⟨by simp, by simp, by simp [State.maskInt]⟩
  sp := by simp [State.maskInt]
  pc := by simp [State.maskInt]
  noMem := rfl
  noBus := rfl

/-- What every acceptance of a maskable interrupt leaves of the control bits and R (rule R605). -/
def IntAccepted (s t : State) : Prop :=
  t.halted = false ∧ t.iff1 = false ∧ t.iff2 = false ∧ (s.rModel = .draw → t.r = s.r)

theorem State.maskInt_accepted (s : State) : IntAccepted s s.sample.maskInt := by
  refine ⟨by simp [State.maskInt], by simp, by simp [State.maskInt], fun hmodel => ?_⟩
  rw [State.maskInt, State.countFetches_of_draw (by simpa using hmodel)]
  rfl

theorem IntAccepted.enterHandler {s u : State} (h : IntAccepted s u) (handler : Word) :
    IntAccepted s (u.enterHandler handler) := by
  simpa [IntAccepted] using h

theorem IntAccepted.enterVector {s u : State} (h : IntAccepted s u) (entry : Word) :
    IntAccepted s (u.enterVector entry) := by
  simpa [IntAccepted, State.enterVector] using h

/-- A step that takes the maskable request goes on as the mode says (rules R602, R604). -/
theorem step_eq_acceptInt_of_request {s : State} (hreset : s.sampledPins.reset = false)
    (hnmi : s.nmiPending = false) (hedge : s.sampledPins.nmiEdge = false) (hline : s.sampledPins.intLine = true)
    (hiff : s.iff1 = true) (hdelay : s.eiDelay = false) : step s = s.sample.acceptInt s.sampledPins.intBus :=
  step_eq_acceptInt hreset (by simp [hnmi, hedge]) (s.sample_takesInt_iff.mpr ⟨hline, hiff, hdelay⟩)

theorem acceptInt_of_im0_restart {s : State} {bus : Byte} (him : s.im = .im0) (hbus : isRestartByte bus = true) :
    s.acceptInt bus = .next (s.maskInt.enterHandler (wordOf 0x00 (bus &&& 0x38))) := by
  simp [State.acceptInt, him, hbus]

theorem acceptInt_of_im0_other {s : State} {bus : Byte} (him : s.im = .im0) (hbus : isRestartByte bus = false) :
    s.acceptInt bus = .refused (.modeZeroSupplied bus) := by
  simp [State.acceptInt, him, hbus]

theorem acceptInt_of_im1 {s : State} (him : s.im = .im1) (bus : Byte) :
    s.acceptInt bus = .next (s.maskInt.enterHandler 0x0038) := by
  simp [State.acceptInt, him]

theorem acceptInt_of_im2 {s : State} (him : s.im = .im2) (bus : Byte) :
    s.acceptInt bus = .next (s.maskInt.enterVector (wordOf s.i bus)) := by
  simp [State.acceptInt, him]

theorem wordOf_eq_ofNat (hi lo : Byte) : wordOf hi lo = BitVec.ofNat 16 (hi.toNat * 256 + lo.toNat) := by
  rw [← wordOf_toNat, BitVec.ofNat_toNat, BitVec.setWidth_eq]

/-- Settles O12: the step accepts the interrupt in mode 1. -/
theorem maskableInterruptModeOne : Obligations.MaskableInterruptModeOne := by
  intro s hreset hnmi hedge hline hiff hdelay him
  obtain ⟨hpushed, hframe⟩ := (State.entersFrom_maskInt hedge).enterHandler 0x0038
  obtain ⟨hhalted, hone, htwo, hr⟩ := s.maskInt_accepted.enterHandler 0x0038
  rw [step_eq_acceptInt_of_request hreset hnmi hedge hline hiff hdelay, acceptInt_of_im1 (s := s.sample) him]
  exact ⟨_, rfl, State.enterHandler_pc _ _, hhalted, hone, htwo, hpushed, hr, hframe⟩

/-- Settles O13: the step accepts the interrupt in mode 2, and the address is read from what the push left. -/
theorem maskableInterruptModeTwo : Obligations.MaskableInterruptModeTwo := by
  intro s hreset hnmi hedge hline hiff hdelay him entry
  have hentry : wordOf s.i s.sampledPins.intBus = entry := wordOf_eq_ofNat _ _
  obtain ⟨hholds, hpushed, hframe⟩ := (State.entersFrom_maskInt hedge).enterVector entry
  obtain ⟨hhalted, hone, htwo, hr⟩ := s.maskInt_accepted.enterVector entry
  rw [step_eq_acceptInt_of_request hreset hnmi hedge hline hiff hdelay, acceptInt_of_im2 (s := s.sample) him,
    State.sample_i, hentry]
  exact ⟨_, rfl, hholds, hhalted, hone, htwo, hpushed, hr, hframe⟩

/-- Settles O14: the step accepts a restart in mode 0 and refuses every other byte. -/
theorem maskableInterruptModeZero : Obligations.MaskableInterruptModeZero := by
  intro s hreset hnmi hedge hline hiff hdelay him b
  rw [step_eq_acceptInt_of_request hreset hnmi hedge hline hiff hdelay]
  refine ⟨fun hrestart => ?_, fun hother => acceptInt_of_im0_other him (by simpa [isRestartByte] using hother)⟩
  have htarget : wordOf 0x00 (b &&& 0x38) = BitVec.ofNat 16 (b &&& 0x38).toNat := by simp [wordOf_eq_ofNat]
  obtain ⟨hpushed, hframe⟩ := (State.entersFrom_maskInt hedge).enterHandler (wordOf 0x00 (b &&& 0x38))
  obtain ⟨hhalted, hone, htwo, hr⟩ := s.maskInt_accepted.enterHandler (wordOf 0x00 (b &&& 0x38))
  exact ⟨_, acceptInt_of_im0_restart him (by simpa [isRestartByte] using hrestart),
    (State.enterHandler_pc _ _).trans htarget, hhalted, hone, htwo, hpushed, hr, hframe⟩

/-! ### The halt state (rule R611) -/

/-- Settles O15: the step is idle, and an idle step counts in R at most. -/
theorem haltedStepChangesNothing : Obligations.HaltedStepChangesNothing := by
  intro s hreset hnmi hedge hnotaken hhalted
  have hint : s.sample.takesInt s.sampledPins = false := by
    rw [Bool.eq_false_iff, Ne, State.sample_takesInt_iff]
    rintro ⟨hline, hiff, -⟩
    simp [hline, hiff] at hnotaken
  refine ⟨_, step_eq_idle hreset (by simp [hnmi, hedge]) hint hhalted, ?pc, ?main, ?mem, ?draws,
    fun hmodel => ?r, (State.sample_frame_of_no_edge hedge).countFetches 1⟩
  case r =>
    rw [State.idle, State.countFetches_of_draw (by simpa using hmodel)]
    rfl
  all_goals simp [State.idle]

/-! ### Reset (rules R700, R701) -/

/-- Settles O10. -/
theorem resetStateAsTheRuleSays : Obligations.ResetStateAsTheRuleSays :=
  ⟨rfl, rfl, rfl, rfl, rfl, rfl, rfl, rfl, rfl⟩

/-- Which of the eight draws of a bank a register takes; F takes the draw of number 1 (log entry 8). -/
def drawInBank : R8 → Nat
  | .a => 0 | .b => 2 | .c => 3 | .d => 4 | .e => 5 | .h => 6 | .l => 7

theorem freeBank_get (n : Nat) (r : R8) : (freeBank n).get r = Config.freeByte (n + drawInBank r) := by
  cases r <;> rfl

theorem step_eq_cpuReset {s : State} (h : s.sampledPins.reset = true) : step s = .next s.sample.cpuReset := by
  unfold step
  exact if_pos h

/-- Settles O9: the nineteen draws of the reset are those numbered from `draws` on, each used once. -/
theorem resetStepRestoresResetState : Obligations.ResetStepRestoresResetState := by
  intro s hreset
  refine ⟨_, step_eq_cpuReset hreset, rfl, rfl, rfl, rfl, rfl, rfl, rfl, rfl, rfl,
    ⟨fun r => s.draws + drawInBank r, fun r => s.draws + 8 + drawInBank r, s.draws + 1, s.draws + 8 + 1, s.draws + 16,
      s.draws + 17, s.draws + 18, fun r => ⟨freeBank_get _ r, freeBank_get _ r⟩, rfl, rfl, rfl, rfl, rfl, ?nodup, ?drawn⟩,
    rfl, rfl, rfl, rfl, rfl, rfl, rfl⟩
  case nodup => simp [drawInBank, Nat.add_assoc]
  case drawn => simp [drawInBank, Nat.add_assoc, State.cpuReset]

/-! ### The start of a step that runs an instruction (rules R89, R602) -/

theorem byteReads_eq_map_read (a : Word) (n : Nat) :
    byteReads a n = ((List.range n).map (a + BitVec.ofNat 16 ·)).map .read := by
  rw [List.map_map]
  rfl

/-- Settles O5: the fetch reads the bytes of the instruction, and then only R and `ei_delay` are written. -/
theorem stepRunsDecodedInstruction : Obligations.StepRunsDecodedInstruction := by
  intro s i hexec hwf hbytes
  have ⟨_, ⟨_, hedge⟩, _⟩ := hexec
  have hfetch : s.sample.afterFetch = s.sample.accesses (byteReads s.pc (encode i).length) :=
    congrArg Prod.fst (State.fetch_of_encode hwf hbytes.sample)
  have hframe : Frame { pins := true, bus := byteReads s.pc (encode i).length } s s.sample.afterFetch := by
    rw [hfetch, byteReads_eq_map_read]
    exact (State.sample_frame_of_no_edge hedge).reads _
  refine ⟨_, step_of_encode hexec hwf hbytes, ?_, ?_, ?_, ?_, ?_, ?_,
    fun hmodel => State.beginInstr_r_of_draw (s := s.sample) i hmodel,
    (hframe.setEiDelay false).countFetches (opcodeFetches i)⟩
  all_goals simp

/-! ### A store and the loads after it (rules R80, R82, R90) -/

/-- Both cells are RAM, so no device sees the first read and both answer what the store left. -/
theorem State.readWord_writeWord {s : State} {a : Word} (w : Word) (hlo : s.isRam a = true)
    (hhi : s.isRam (a + 1) = true) : (s.writeWord a w).readWord a = w := by
  have hdev : (s.writeWord a w).isDevice a = false := by simpa using State.isDevice_of_isRam hlo
  obtain ⟨hreadLo, hreadHi⟩ : StoredWord s (s.writeWord a w) a w := StoredWord.of_writeWord fun _ => rfl
  rw [State.readWord, State.afterRead_eq hdev, hreadHi hhi, hreadLo hlo, ← hiByte_eq_ofNat, ← loByte_eq_ofNat,
    wordOf_hiByte_loByte]

/-- Settles O22: a store writes its cells alone, and RAM reads them back, for a fetch as for a load. -/
theorem storeThenLoad : Obligations.StoreThenLoad := fun s a v w =>
  ⟨Stored.of_writeByte rfl, s.writeByte_frame a v, s.writeByte_pc a v, StoredWord.of_writeWord fun _ => rfl,
    s.writeWord_frame a w, State.readWord_writeWord w, fun hram => ⟨State.readByte_writeByte_same v hram, trivial⟩⟩

end Sys2Proof.Machine

/-! SUPPORT. BIT, RES and SET, the jumps, calls and returns, the input and output, and DAA (obligations O41, O52, O53, O55
to O60): one rule for each way an instruction ends, which its forms share. -/

namespace Sys2Proof.Machine

/-! ### The forms of a CB-page operation (rules R423, R480 to R491) -/

/-- Four forms of which each runs `opReg` or `opMem` on its operand and moves pc on. That they do (`hruns`) is read off
`encode` and `exec`, the same way for every operation. -/
theorem ForCbForms.of_operation {x : BitVec 2} {y : BitVec 3} {onR : R8 → Instr} {onHl : Instr}
    {onIx onIy : Byte → Instr} {s : State} {onReg : R8 → State → Prop} {onMem : Word → Word → State → Prop}
    (opReg : R8 → State) (opMem : Word → State) (hreg : ∀ r, onReg r ((opReg r).advance 2))
    (hmem : ∀ a len, onMem a len ((opMem a).advance len))
    (hruns : ForCbForms x y onR onHl onIx onIy s (fun r t => t = (opReg r).advance 2)
        (fun a len t => t = (opMem a).advance len) := by
      exact ⟨fun _ => ⟨rfl, _, rfl, rfl⟩, ⟨rfl, _, rfl, rfl⟩, fun _ => ⟨rfl, _, rfl, rfl⟩,
        fun _ => ⟨rfl, _, rfl, rfl⟩⟩) :
    ForCbForms x y onR onHl onIx onIy s onReg onMem := by
  obtain ⟨hr, hhl, hix, hiy⟩ := hruns
  exact ⟨fun r => (hr r).imp fun _ ht => ht ▸ hreg r, hhl.imp fun _ ht => ht ▸ hmem _ _,
    fun d => (hix d).imp fun _ ht => ht ▸ hmem _ _, fun d => (hiy d).imp fun _ ht => ht ▸ hmem _ _⟩

/-- `BIT` (rules R480 to R483), after the operand is read. -/
theorem OperandRead.testBit {s u : State} {bus : List Access} (hu : OperandRead s bus u) (b : BitVec 3) (v : Byte)
    (len : Word) :
    let t := (u.testBit b v).advance len
    t.pc = s.pc + len ∧ (t.flags.z = true ↔ v.getLsbD b.toNat = false) ∧ t.flags.h = true ∧ t.flags.n = false ∧
      t.flags.c = s.flags.c ∧ Drawn s t t.flags.s ∧ Drawn s t t.flags.pv ∧ OpenBits s t ∧
        Frame { flags := true, bus := bus } s t := by
  intro t
  have hflags : t.flags = { s := u.drawnBit 0, z := !v.getLsbD b.toNat, h := true, pv := u.drawnBit 1, n := false,
                            c := u.flags.c } := by simp [t, State.testBit]
  have hdraws : t.draws = s.draws + 4 := by simp [t, hu.draws]
  have hdrawn {k : Nat} (hk : k < 4) : Drawn s t (u.drawnBit k) := by
    refine ⟨s.draws + k, by omega, by omega, ?_⟩
    rw [State.drawnBit, hu.draws]
  rw [hflags]
  refine ⟨?pc, by simp, rfl, rfl, State.flags_congr (congrArg Bank.f hu.main) ▸ rfl, hdrawn (by decide),
    hdrawn (by decide), OpenBits.of_setFlags (u := u.drew 2) _ ?_ rfl le_rfl,
    ((hu.frame.drew 2).setFlags _).advance len⟩
  · simp [t, State.testBit, hu.pc]
  · simp [hu.draws]

/-- Settles O52: the four forms run `testBit` on their operand. -/
theorem bitTest : Obligations.BitTest := fun s b =>
  .of_operation (fun r => s.testBit b (s.reg8 r)) (fun a => (s.afterRead a).testBit b (s.readByte a))
    (fun r => (OperandRead.refl s).testBit b (s.reg8 r) 2)
    (fun a len => (OperandRead.afterRead s a).testBit b (s.readByte a) len)

/-! ### RES and SET (rules R484 to R491) -/

theorem getLsbD_bitMask (b : BitVec 3) {k : Nat} (hk : k < 8) : (bitMask b).getLsbD k = decide (k = b.toNat) := by
  revert b k; decide

/-- `res` is `v` with bit `b` made `bit`. -/
def BitReplaced (b : BitVec 3) (bit : Bool) (v res : Byte) : Prop :=
  ∀ k, k < 8 → res.getLsbD k = if k = b.toNat then bit else v.getLsbD k

theorem bitReplaced_reset (b : BitVec 3) (v : Byte) : BitReplaced b false v (v &&& ~~~bitMask b) := by
  intro k hk
  rw [BitVec.getLsbD_and, BitVec.getLsbD_not, getLsbD_bitMask b hk, decide_eq_true hk]
  split <;> simp [*]

theorem bitReplaced_set (b : BitVec 3) (v : Byte) : BitReplaced b true v (v ||| bitMask b) := by
  intro k hk
  rw [BitVec.getLsbD_or, getLsbD_bitMask b hk]
  split <;> simp [*]

/-- Four forms of which each replaces its operand `v` by `op v`, of which the operation's rule `Rule` holds, and writes no
flag (rule R99). -/
theorem ForCbForms.of_replaced {x : BitVec 2} {y : BitVec 3} {onR : R8 → Instr} {onHl : Instr}
    {onIx onIy : Byte → Instr} {s : State} {Rule : Byte → Byte → Prop} (op : Byte → Byte) (hrule : ∀ v, Rule v (op v))
    (hruns : ForCbForms x y onR onHl onIx onIy s (fun r t => t = (s.setReg8 r (op (s.reg8 r))).advance 2)
        (fun a len t => t = (s.rewriteByte a (op (s.readByte a))).advance len) := by
      exact ⟨fun _ => ⟨rfl, _, rfl, rfl⟩, ⟨rfl, _, rfl, rfl⟩, fun _ => ⟨rfl, _, rfl, rfl⟩,
        fun _ => ⟨rfl, _, rfl, rfl⟩⟩) :
    ForCbForms x y onR onHl onIx onIy s
      (fun r t => t.pc = s.pc + 2 ∧ Rule (s.reg8 r) (t.reg8 r) ∧ Frame { regs := [r] } s t)
      (fun a len t => t.pc = s.pc + len ∧ ∃ res, Rule (s.readByte a) res ∧ Stored s t a res ∧
        Frame { mem := [a], bus := [.read a, .write a res] } s t) := by
  refine .of_operation (fun r => s.setReg8 r (op (s.reg8 r))) (fun a => s.rewriteByte a (op (s.readByte a)))
    (fun r => ⟨rfl, ?reg, ((Frame.refl s).setReg8 r _).advance 2⟩)
    (fun a len => ⟨by simp, op (s.readByte a), hrule _, Stored.of_eq (s.afterRead_isRam a a) rfl,
      ((s.afterRead_frame a).writeByte a _).advance len⟩) hruns
  case reg =>
    have hget : ((s.setReg8 r (op (s.reg8 r))).advance 2).reg8 r = op (s.reg8 r) := Bank.set_get_same _ r _
    rw [hget]
    exact hrule _

/-- Settles O53: the four forms of each clear or set one bit of their operand. -/
theorem bitResetAndSet : Obligations.BitResetAndSet := fun _ b =>
  ⟨.of_replaced (Rule := BitReplaced b false) (· &&& ~~~bitMask b) (bitReplaced_reset b),
    .of_replaced (Rule := BitReplaced b true) (· ||| bitMask b) (bitReplaced_set b)⟩

/-! ### Jumps (rules R500 to R507) -/

/-- The displacement of a relative jump counts from the next instruction (rule R126). -/
theorem State.relative_toNat (s : State) (e : Byte) :
    ((s.relative e).toNat : Int) = ((s.pc.toNat : Int) + 2 + e.toInt) % 65536 := by
  have hext : (sext16 e).toInt = e.toInt := BitVec.toInt_signExtend_of_le (by decide)
  rw [BitVec.toInt_eq_toNat_cond] at hext
  have htwo : (2 : Word).toNat = 2 := rfl
  rw [State.relative, BitVec.toNat_add, BitVec.toNat_add, htwo]
  split at hext <;> omega

/-- pc set and nothing else: `Goes` is what the rule says of it. -/
theorem Runs.jump {i : Instr} {bytes : List Byte} {s : State} {target : Word} (Goes : Word → Prop)
    (hgoes : Goes target) (hbytes : encode i = bytes) (hexec : exec i s = .next (s.jump target)) :
    Runs i bytes s (fun t => Goes t.pc ∧ Frame {} s t) :=
  ⟨hbytes, _, hexec, hgoes, (Frame.refl s).jump target⟩

/-- A conditional instruction: what holds where the condition does, and where it does not. -/
theorem Runs.ite {i : Instr} {bytes : List Byte} {s : State} {c : Prop} [Decidable c] {yes no : State → Prop}
    (hyes : c → Runs i bytes s yes) (hno : ¬c → Runs i bytes s no) :
    Runs i bytes s (fun t => if c then yes t else no t) := by
  by_cases hc : c
  · exact (hyes hc).imp fun _ ht => (if_pos hc).mpr ht
  · exact (hno hc).imp fun _ ht => (if_neg hc).mpr ht

/-- `DJNZ` (rule R507): B counted down, then one jump. -/
theorem exec_djnz (e : Byte) (s : State) :
    exec (.djnz e) s =
      .next ((s.setB (s.main.b - 1)).jump (if s.main.b - 1 ≠ 0 then s.relative e else s.pc + 2)) := by
  simp only [← bne_iff_ne]
  exact congrArg _ (apply_ite (s.setB (s.main.b - 1)).jump _ _ _).symm

/-- Settles O55: each jump sets pc, DJNZ after counting B down. -/
theorem jumps : Obligations.Jumps := by
  intro s cc nn e target
  have htaken : ((s.relative e).toNat : Int) = target := s.relative_toNat e
  have hcond (taken past : Word) : (if s.cond cc = true then s.jump taken else s.jump past) =
      s.jump (if s.cond cc = true then taken else past) := (apply_ite s.jump _ _ _).symm
  refine ⟨Runs.jump (· = nn) rfl rfl rfl, Runs.jump (· = if s.cond cc = true then nn else s.pc + 3) rfl rfl ?jp,
    Runs.jump (fun pc => (pc.toNat : Int) = target) htaken rfl rfl, fun hrel => ?jr, Runs.jump (· = s.hl) rfl rfl rfl,
    Runs.jump (· = s.ix) rfl rfl rfl, Runs.jump (· = s.iy) rfl rfl rfl, ?djnz⟩
  case jp => exact congrArg _ (hcond nn (s.pc + 3))
  case jr =>
    have hbytes : encode (.jrCondE cc e) = [opByte 0 (4 + cc.code) 0, e] := by
      cases cc with
      | nz | z | nc | c => rfl
      | po | pe | p | m => cases hrel
    refine Runs.jump (fun pc => if s.cond cc = true then (pc.toNat : Int) = target else pc = s.pc + 2) ?_ hbytes
      (congrArg _ (hcond (s.relative e) (s.pc + 2)))
    split
    next => exact htaken
    next => rfl
  case djnz =>
    refine ⟨rfl, _, exec_djnz e s, rfl, ?_, ((Frame.refl s).setReg8 .b (s.main.b - 1)).jump _⟩
    simp only [State.jump_pc, State.jump_main, State.setB_main]
    split
    next => exact htaken
    next => rfl

/-! ### Calls and returns (rules R508 to R514) -/

theorem Runs.call {i : Instr} {bytes : List Byte} {s : State} {ret target : Word} (hbytes : encode i = bytes)
    (hexec : exec i s = .next (s.call ret target)) :
    Runs i bytes s (fun t => t.pc = target ∧ Pushed s t ret ∧
      Frame { sp := true, mem := stackCells s, bus := pushWrites s.sp ret } s t) :=
  ⟨hbytes, _, hexec, by simp, s.push16_pushed ret, (s.push16_frame ret).jump target⟩

/-- A conditional instruction whose condition does not hold goes past itself. -/
theorem Runs.past {i : Instr} {bytes : List Byte} {s : State} {n : Word} (hbytes : encode i = bytes)
    (hexec : exec i s = .next (s.advance n)) : Runs i bytes s (fun t => t.pc = s.pc + n ∧ Frame {} s t) :=
  ⟨hbytes, _, hexec, rfl, (Frame.refl s).advance n⟩

/-- The field of a restart target (rule R514). -/
theorem restartField_ofNat (f : BitVec 3) : restartField (BitVec.ofNat 16 (f.toNat * 8)) = f := by
  revert f; decide

/-- Settles O56: a call and a restart are one push and one jump. -/
theorem callsAndRestarts : Obligations.CallsAndRestarts := by
  intro s cc nn f
  refine ⟨Runs.call rfl rfl, Runs.ite (fun hc => Runs.call rfl ?taken) (fun hc => Runs.past rfl ?past),
    (Runs.call ?bytes rfl).imp ?target⟩
  case taken => exact congrArg _ (if_pos hc)
  case past => exact congrArg _ (if_neg hc)
  case bytes => exact congrArg (fun field => [opByte 3 field 7]) (restartField_ofNat f)
  case target =>
    rintro t ⟨hpc, hrest⟩
    have hf := f.isLt
    exact ⟨by rw [hpc, BitVec.toNat_ofNat]; omega, hrest⟩

theorem State.returnFrom_frame (s : State) : Frame { sp := true, bus := wordReads s.sp } s s.returnFrom :=
  s.afterPop_frame.jump s.popped

theorem State.returnFrom_holdsWord (s : State) : HoldsWord s s.sp s.returnFrom.pc := HoldsWord.of_readWord s s.sp

theorem Runs.returnFrom {i : Instr} {bytes : List Byte} {s : State} (hbytes : encode i = bytes)
    (hexec : exec i s = .next s.returnFrom) :
    Runs i bytes s (fun t => HoldsWord s s.sp t.pc ∧ t.sp = s.sp + 2 ∧
      Frame { sp := true, bus := wordReads s.sp } s t) :=
  ⟨hbytes, _, hexec, s.returnFrom_holdsWord, s.returnFrom_sp, s.returnFrom_frame⟩

/-- Settles O57: every return pops pc, and RETN copies IFF2 besides. -/
theorem returns : Obligations.Returns := fun s _ =>
  ⟨Runs.returnFrom rfl rfl,
    Runs.ite (fun hc => Runs.returnFrom rfl (congrArg _ (if_pos hc))) (fun hc => Runs.past rfl (congrArg _ (if_neg hc))),
    Runs.returnFrom rfl rfl,
    ⟨rfl, _, rfl, s.returnFrom_holdsWord, s.returnFrom_sp, rfl, rfl, s.returnFrom_frame.setIff s.iff2 s.iff2⟩⟩

/-! ### Single port accesses (rules R540, R541, R546, R547) -/

theorem State.afterPortRead_frame (s : State) (port : Word) : Frame { bus := [.input port] } s (s.afterPortRead port) := by
  apply Frame.of_cells
  case htrace => rfl
  all_goals simp [State.reg8]

theorem Frame.portWrite {w : Writes} {s t : State} (h : Frame w s t) (port : Word) (v : Byte) :
    Frame { w with bus := w.bus ++ [.output port v] } s (t.portWrite port v) := by
  obtain ⟨hreg, hf, halt, hix, hiy, hsp, hi, hr, hiff, him, hhalted, hei, hnmi, hpins, hcell, -, htrace, hport, hmap,
    hrm, hbio⟩ := h
  apply Frame.of_cells
  case hreg => exact hreg
  case htrace => simp [htrace]
  all_goals simpa

/-- `IN A,(n)` (rule R540). -/
theorem Runs.inputToA {s : State} {n : Byte} {port : Word} (hport : wordOf s.main.a n = port) :
    Runs (.inAN n) [0xDB, n] s (fun t => t.pc = s.pc + 2 ∧ t.main.a = s.portAnswer port ∧ t.portIn = s.portIn.tail ∧
      t.ioTrace = .portRead port t.main.a :: s.ioTrace ∧ Frame { regs := [.a], bus := [.input port] } s t) := by
  subst hport
  exact ⟨rfl, _, rfl, rfl, rfl, rfl, rfl, ((s.afterPortRead_frame _).setReg8 .a _).advance 2⟩

/-- What `IN r,(C)` leaves, `v` being the answer of the port (rule R541). -/
theorem inputToReg8_spec {s t : State} {r : R8} {v : Byte} (hv : s.portAnswer s.bc = v)
    (ht : t = (((s.afterPortRead s.bc).setReg8 r v).setFlags (byteFlags v s.flags)).advance 2) :
    t.pc = s.pc + 2 ∧ t.reg8 r = v ∧ t.flags = byteFlags v s.flags ∧ t.portIn = s.portIn.tail ∧
      t.ioTrace = .portRead s.bc v :: s.ioTrace ∧ OpenBits s t ∧
      Frame { regs := [r], flags := true, bus := [.input s.bc] } s t := by
  obtain ⟨hreg, hflags, -⟩ := (s.afterPortRead s.bc).updateReg8_spec r (v, byteFlags v s.flags)
  subst ht hv
  exact ⟨rfl, hreg, hflags, rfl, rfl,
    OpenBits.of_setFlags (u := (s.afterPortRead s.bc).setReg8 r _) (byteFlags _ s.flags) le_rfl rfl le_rfl,
    (((s.afterPortRead_frame s.bc).setReg8 r _).setFlags _).advance 2⟩

/-- `IN r,(C)` (rule R541). -/
theorem Runs.inputToReg8 (s : State) (r : R8) :
    Runs (.inRC r) [0xED, opByte 1 r.code 0] s (fun t =>
      t.pc = s.pc + 2 ∧ t.reg8 r = s.portAnswer s.bc ∧ t.portIn = s.portIn.tail ∧
        t.ioTrace = .portRead s.bc (t.reg8 r) :: s.ioTrace ∧ SignZero (t.reg8 r) t.flags ∧ t.flags.h = false ∧
        ParityOf (t.reg8 r) t.flags ∧ t.flags.n = false ∧ t.flags.c = s.flags.c ∧
        OpenBits s t ∧ Frame { regs := [r], flags := true, bus := [.input s.bc] } s t) := by
  refine ⟨rfl, _, rfl, ?_⟩
  obtain ⟨hpc, hreg, hflags, hport, htrace, hrest⟩ := inputToReg8_spec (r := r) (rfl : s.portAnswer s.bc = _) rfl
  obtain ⟨hsz, hparity, hh, hn, hc⟩ := byteFlags_spec (s.portAnswer s.bc) s.flags
  rw [hreg, hflags]
  exact ⟨hpc, rfl, hport, htrace, hsz, hh, hparity, hn, hc, hrest⟩

/-- `OUT (n),A` and `OUT (C),r` (rules R546, R547). -/
theorem Runs.output {i : Instr} {bytes : List Byte} {s : State} {port : Word} {v : Byte} (hbytes : encode i = bytes)
    (hexec : exec i s = .next ((s.portWrite port v).advance 2)) :
    Runs i bytes s (fun t => t.pc = s.pc + 2 ∧ t.portIn = s.portIn ∧ t.ioTrace = .portWrite port v :: s.ioTrace ∧
      Frame { bus := [.output port v] } s t) :=
  ⟨hbytes, _, hexec, rfl, rfl, rfl, ((Frame.refl s).portWrite port v).advance 2⟩

/-- Settles O58: each form is one access to the port its rule names. -/
theorem portInputAndOutput : Obligations.PortInputAndOutput := by
  intro s r n portAN
  have hport : wordOf s.main.a n = portAN := wordOf_eq_ofNat s.main.a n
  exact ⟨Runs.inputToA hport, Runs.inputToReg8 s r, Runs.output rfl (hport ▸ rfl), Runs.output rfl rfl⟩

end Sys2Proof.Machine

/-! SUPPORT. The block input and output (obligations O59, O60), one lemma for each whichever way the pointer steps and
whether or not the instruction repeats, and DAA (obligation O41). -/

namespace Sys2Proof.Machine

/-! ### The flags of a block input or output (rule R542, `BLOCK_IO_FLAGS`) -/

/-- What the flag rule of the block input and output says of `t`, and that the rest is as `w` frames it. -/
def BlockIoLeaves (w : Writes) (s t : State) : Prop :=
  (t.flags.z = true ↔ t.main.b = 0) ∧ Drawn s t t.flags.s ∧ Drawn s t t.flags.h ∧ Drawn s t t.flags.pv ∧
    (s.blockIoFlags = .documented → t.flags.n = true ∧ t.flags.c = s.flags.c) ∧
    (s.blockIoFlags = .draw → Drawn s t t.flags.n ∧ Drawn s t t.flags.c) ∧ OpenBits s t ∧ Frame w s t

/-- The five draws of the rule, of which `documented` discards two, come before those of bits 5 and 3. -/
theorem State.drawn_setBlockIoFlags {s u : State} (hdraws : u.draws = s.draws) {k : Nat} (hk : k < 5) :
    Drawn s u.setBlockIoFlags (u.drawnBit k) := by
  obtain ⟨-, -, -, -, hmade⟩ := u.setBlockIoFlags_makesDraws
  exact ⟨u.draws + k, by omega, by omega, rfl⟩

theorem State.setBlockIoFlags_flags_of_documented {u : State} (h : u.blockIoFlags = .documented) :
    u.setBlockIoFlags.flags = { s := u.drawnBit 0, z := u.main.b == 0, h := u.drawnBit 1, pv := u.drawnBit 2, n := true,
                                c := u.flags.c } := by
  simp [State.setBlockIoFlags, h]

theorem State.setBlockIoFlags_flags_of_draw {u : State} (h : u.blockIoFlags = .draw) :
    u.setBlockIoFlags.flags = { s := u.drawnBit 0, z := u.main.b == 0, h := u.drawnBit 1, pv := u.drawnBit 2
                                n := u.drawnBit 3, c := u.drawnBit 4 } := by
  simp [State.setBlockIoFlags, h]

theorem Frame.setBlockIoFlags {w : Writes} {s u : State} (h : Frame w s u) :
    Frame { w with flags := true } s u.setBlockIoFlags := (h.drew 5).setFlags _

theorem State.setBlockIoFlags_leaves {w : Writes} {s u : State} (hframe : Frame w s u) (hflags : u.flags = s.flags)
    (hdraws : u.draws = s.draws) : BlockIoLeaves { w with flags := true } s u.setBlockIoFlags := by
  have hmode : u.blockIoFlags = s.blockIoFlags := by
    obtain ⟨-, -, -, -, -, -, -, -, -, -, -, -, -, -, -, -, -, -, -, -, hbio⟩ := hframe
    exact hbio
  have hopen : OpenBits s u.setBlockIoFlags := OpenBits.of_setFlags (u := u.drew 5) _ (by simp [hdraws]) rfl le_rfl
  have hdrawn {k : Nat} (hk : k < 5) := State.drawn_setBlockIoFlags hdraws hk
  have hb : u.setBlockIoFlags.main.b = u.main.b := rfl
  unfold BlockIoLeaves
  rw [hb, ← hmode, ← hflags]
  cases h : u.blockIoFlags with
  | documented =>
    rw [State.setBlockIoFlags_flags_of_documented h]
    exact ⟨beq_iff_eq, hdrawn (by decide), hdrawn (by decide), hdrawn (by decide), fun _ => ⟨rfl, rfl⟩, nofun, hopen,
      hframe.setBlockIoFlags⟩
  | draw =>
    rw [State.setBlockIoFlags_flags_of_draw h]
    exact ⟨beq_iff_eq, hdrawn (by decide), hdrawn (by decide), hdrawn (by decide), nofun,
      fun _ => ⟨hdrawn (by decide), hdrawn (by decide)⟩, hopen, hframe.setBlockIoFlags⟩

/-! ### The block input (rules R542 to R545) -/

/-- What `INI`, `IND`, `INIR` and `INDR` leave but for pc, where the pointer steps to `hl`. -/
def BlockReceived (s t : State) (hl : Word) : Prop :=
  t.hl = hl ∧ t.main.b = s.main.b - 1 ∧ Stored s t s.hl (s.portAnswer s.bc) ∧ t.portIn = s.portIn.tail ∧
    ((s.onWriteAt s.hl).handed = false → t.ioTrace = .portRead s.bc (s.portAnswer s.bc) :: s.ioTrace) ∧
    BlockIoLeaves { regs := [.b, .h, .l], flags := true, mem := [s.hl],
                    bus := [.input s.bc, .write s.hl (s.portAnswer s.bc)] } s t

theorem BlockReceived.jump {s t : State} {hl : Word} (h : BlockReceived s t hl) (target : Word) :
    BlockReceived s (t.jump target) hl := h

@[simp] theorem State.setBlockIoFlags_pc (s : State) : s.setBlockIoFlags.pc = s.pc := rfl

@[simp] theorem State.inputBlock_pc (s : State) (delta : Word) : (s.inputBlock delta).pc = s.pc := by
  simp [State.inputBlock]

@[simp] theorem State.inputBlock_b (s : State) (delta : Word) : (s.inputBlock delta).main.b = s.main.b - 1 := by
  simp [State.inputBlock, State.setBlockIoFlags]

theorem State.inputBlock_received (s : State) (delta : Word) :
    BlockReceived s (s.inputBlock delta) (s.hl + delta) := by
  refine ⟨?hl, s.inputBlock_b delta, ?stored, ?portIn, ?trace, State.setBlockIoFlags_leaves (u := _)
    ((((s.afterPortRead_frame s.bc).writeByte s.hl (s.portAnswer s.bc)).setHL _).setReg8 .b _) ?flags ?draws⟩
  case hl => simp [State.inputBlock, State.setBlockIoFlags, State.hl]
  case stored =>
    exact Stored.of_eq (u := s.afterPortRead s.bc) rfl (by simp [State.inputBlock, State.setBlockIoFlags])
  case trace =>
    intro hnot
    simp [State.inputBlock, State.setBlockIoFlags, hnot]
  all_goals simp [State.inputBlock, State.setBlockIoFlags]

theorem Runs.inputBlockOnce {i : Instr} {bytes : List Byte} {s : State} {delta hl : Word} (hhl : s.hl + delta = hl)
    (hbytes : encode i = bytes) (hexec : exec i s = .next ((s.inputBlock delta).advance 2)) :
    Runs i bytes s (fun t => t.pc = s.pc + 2 ∧ BlockReceived s t hl) := by
  subst hhl
  exact ⟨hbytes, _, hexec, by simp, (s.inputBlock_received delta).jump _⟩

theorem Runs.inputBlockRepeating {i : Instr} {bytes : List Byte} {s : State} {delta hl : Word}
    (hhl : s.hl + delta = hl) (hbytes : encode i = bytes)
    (hexec : exec i s = .next ((s.inputBlock delta).advanceUnless (s.main.b - 1 != 0))) :
    Runs i bytes s (fun t => t.pc = (if t.main.b = 0 then s.pc + 2 else s.pc) ∧ BlockReceived s t hl) := by
  subst hhl
  rw [State.advanceUnless_eq_jump] at hexec
  exact ⟨hbytes, _, hexec, by simp, (s.inputBlock_received delta).jump _⟩

/-- Settles O59: the four block inputs are one iteration of the same input, forward or backward. -/
theorem blockInput : Obligations.BlockInput := fun s =>
  have hhl := (sub_eq_add_neg s.hl 1).symm
  ⟨Runs.inputBlockOnce rfl rfl rfl, Runs.inputBlockRepeating rfl rfl rfl,
    Runs.inputBlockOnce hhl rfl rfl, Runs.inputBlockRepeating hhl rfl rfl⟩

/-! ### The block output (rules R548 to R551) -/

/-- What `OUTI`, `OUTD`, `OTIR` and `OTDR` leave but for pc, where the pointer steps to `hl`. -/
def BlockSent (s t : State) (hl : Word) : Prop :=
  t.hl = hl ∧ t.main.b = s.main.b - 1 ∧
    (s.isDevice s.hl = false → t.ioTrace = .portWrite t.bc (s.readByte s.hl) :: s.ioTrace) ∧
    BlockIoLeaves { regs := [.b, .h, .l], flags := true, bus := [.read s.hl, .output t.bc (s.readByte s.hl)] } s t

theorem BlockSent.jump {s t : State} {hl : Word} (h : BlockSent s t hl) (target : Word) :
    BlockSent s (t.jump target) hl := h

@[simp] theorem State.outputBlock_pc (s : State) (delta : Word) : (s.outputBlock delta).pc = s.pc := by
  simp [State.outputBlock]

@[simp] theorem State.outputBlock_b (s : State) (delta : Word) : (s.outputBlock delta).main.b = s.main.b - 1 := by
  simp [State.outputBlock, State.setBlockIoFlags]

/-- The port is that of the new B (rule R548). -/
theorem State.outputBlock_bc (s : State) (delta : Word) :
    (s.outputBlock delta).bc = ((s.afterRead s.hl).setB (s.main.b - 1)).bc := by
  simp [State.outputBlock, State.setBlockIoFlags, State.bc]

theorem State.outputBlock_sent (s : State) (delta : Word) : BlockSent s (s.outputBlock delta) (s.hl + delta) := by
  unfold BlockSent
  rw [State.outputBlock_bc]
  refine ⟨?hl, s.outputBlock_b delta, ?trace, State.setBlockIoFlags_leaves (u := _)
    (((((s.afterRead_frame s.hl).setReg8 .b (s.main.b - 1)).portWrite _ (s.readByte s.hl)).setHL _).of_regs_subset ?regs)
    ?flags ?draws⟩
  case hl => simp [State.outputBlock, State.setBlockIoFlags, State.hl]
  case trace =>
    intro hdev
    simp [State.outputBlock, State.setBlockIoFlags, hdev]
  all_goals simp

theorem Runs.outputBlockOnce {i : Instr} {bytes : List Byte} {s : State} {delta hl : Word} (hhl : s.hl + delta = hl)
    (hbytes : encode i = bytes) (hexec : exec i s = .next ((s.outputBlock delta).advance 2)) :
    Runs i bytes s (fun t => t.pc = s.pc + 2 ∧ BlockSent s t hl) := by
  subst hhl
  exact ⟨hbytes, _, hexec, by simp, (s.outputBlock_sent delta).jump _⟩

theorem Runs.outputBlockRepeating {i : Instr} {bytes : List Byte} {s : State} {delta hl : Word}
    (hhl : s.hl + delta = hl) (hbytes : encode i = bytes)
    (hexec : exec i s = .next ((s.outputBlock delta).advanceUnless (s.main.b - 1 != 0))) :
    Runs i bytes s (fun t => t.pc = (if t.main.b = 0 then s.pc + 2 else s.pc) ∧ BlockSent s t hl) := by
  subst hhl
  rw [State.advanceUnless_eq_jump] at hexec
  exact ⟨hbytes, _, hexec, by simp, (s.outputBlock_sent delta).jump _⟩

/-- Settles O60: the four block outputs are one iteration of the same output, forward or backward. -/
theorem blockOutput : Obligations.BlockOutput := fun s =>
  have hhl := (sub_eq_add_neg s.hl 1).symm
  ⟨Runs.outputBlockOnce rfl rfl rfl, Runs.outputBlockRepeating rfl rfl rfl,
    Runs.outputBlockOnce hhl rfl rfl, Runs.outputBlockRepeating hhl rfl rfl⟩

/-! ### DAA (rule R380, D22) -/

/-- What DAA corrects the low digit by. -/
def daaLow (a : Byte) (old : Flags) : Nat := if old.h = true ∨ 9 < a.toNat % 16 then 6 else 0

/-- What DAA corrects the high digit by. -/
def daaHigh (a : Byte) (old : Flags) : Nat := if old.c = true ∨ 0x99 < a.toNat then 0x60 else 0

/-- The correction of `daaOf`. -/
def daaCorrection (a : Byte) (old : Flags) : Byte :=
  (if old.h || decide (a.toNat % 16 > 9) then 0x06 else 0x00) ||| (if old.c || decide (a.toNat > 0x99) then 0x60 else 0x00)

theorem daaCorrection_toNat (a : Byte) (old : Flags) : (daaCorrection a old).toNat = daaLow a old + daaHigh a old := by
  simp only [daaCorrection, daaLow, daaHigh, Bool.or_eq_true, decide_eq_true_eq, gt_iff_lt]
  split <;> split <;> rfl

theorem daaOf_fst (a : Byte) (old : Flags) :
    (daaOf a old).1 = if old.n then a - daaCorrection a old else a + daaCorrection a old := rfl

theorem daaOf_toNat_of_add {a : Byte} {old : Flags} (h : old.n = false) :
    (daaOf a old).1.toNat = (a.toNat + daaLow a old + daaHigh a old) % 256 := by
  simp [daaOf_fst, h, daaCorrection_toNat, BitVec.toNat_add, Nat.add_assoc]

theorem daaOf_toNat_of_sub {a : Byte} {old : Flags} (h : old.n = true) :
    (daaOf a old).1.toNat = (a.toNat + 256 - daaLow a old - daaHigh a old) % 256 := by
  simp only [daaOf_fst, h, if_true, BitVec.toNat_sub, daaCorrection_toNat]
  unfold daaLow daaHigh
  split <;> split <;> omega

theorem daaOf_c (a : Byte) (old : Flags) : (daaOf a old).2.c = (old.c || decide (0x99 < a.toNat)) := rfl

theorem daaOf_c_iff (a : Byte) (old : Flags) : (daaOf a old).2.c = true ↔ old.c = true ∨ 0x99 < a.toNat := by
  simp [daaOf_c]

theorem daaOf_h_iff (a : Byte) (old : Flags) : (daaOf a old).2.h = true ↔
    (old.n = false ∧ 9 < a.toNat % 16) ∨ (old.n = true ∧ old.h = true ∧ a.toNat % 16 < 6) := by
  simp [daaOf, and_assoc]

theorem daaLow_cases (a : Byte) (old : Flags) :
    (old.h = true ∨ 9 < a.toNat % 16) ∧ daaLow a old = 6 ∨ ¬(old.h = true ∨ 9 < a.toNat % 16) ∧ daaLow a old = 0 := by
  unfold daaLow
  split <;> simp [*]

theorem daaHigh_cases (a : Byte) (old : Flags) :
    (old.c = true ∨ 0x99 < a.toNat) ∧ daaHigh a old = 0x60 ∨ ¬(old.c = true ∨ 0x99 < a.toNat) ∧ daaHigh a old = 0 := by
  unfold daaHigh
  split <;> simp [*]

theorem daaOf_toNat_cases (a : Byte) (old : Flags) :
    old.n = false ∧ (daaOf a old).1.toNat = (a.toNat + daaLow a old + daaHigh a old) % 256 ∨
      old.n = true ∧ (daaOf a old).1.toNat = (a.toNat + 256 - daaLow a old - daaHigh a old) % 256 := by
  cases h : old.n with
  | false => exact .inl ⟨rfl, daaOf_toNat_of_add h⟩
  | true => exact .inr ⟨rfl, daaOf_toNat_of_sub h⟩

/-- Each row of the source's table gives what the total rule gives (rule R380): within the digits and flags of a row the
corrections are fixed, and `added` is their sum, or 256 less it. -/
theorem daaOf_of_row {a : Byte} {old : Flags} {row : DaaRow} (hrow : row ∈ daaTable) (hfits : row.fits a old) :
    (daaOf a old).1.toNat = (a.toNat + row.added) % 256 ∧ (daaOf a old).2.c = row.cout := by
  obtain ⟨hn, hc, hh, hhighFrom, hhighTo, hlowFrom, hlowTo⟩ := hfits
  have ha := a.isLt
  have hlow := daaLow_cases a old
  have hhigh := daaHigh_cases a old
  have hvalue := daaOf_toNat_cases a old
  rw [hh] at hlow
  rw [hc] at hhigh
  rw [hn] at hvalue
  rw [daaOf_c, hc]
  clear hn hh hc
  fin_cases hrow
  all_goals
    simp only [Bool.false_eq_true, Bool.true_eq_false, false_or, true_or, or_false, true_and, false_and, not_true_eq_false,
      Bool.false_or, Bool.true_or, and_true, decide_eq_true_eq, decide_eq_false_iff_not] at *
    omega

/-- Settles O41: DAA writes A and the flags by `daaOf`, which follows the total rule and so every row of the table. -/
theorem decimalAdjust : Obligations.DecimalAdjust := by
  intro s
  refine ⟨rfl, _, rfl, ?_⟩
  obtain ⟨hpc, ha, hflags, hopen, hframe⟩ := (OperandRead.refl s).setA_setFlags (daaOf s.main.a s.flags).1
    (daaOf s.main.a s.flags).2 1 rfl
  simp only [ha, hflags]
  exact ⟨hpc, daaOf_toNat_of_add, daaOf_toNat_of_sub, signZero_of rfl rfl, parity8_iff _, rfl, daaOf_c_iff _ _,
    daaOf_h_iff _ _, fun _ => daaOf_of_row, hopen, hframe⟩

end Sys2Proof.Machine

/-! SUPPORT. Whatever decodes is encoded by the bytes read (obligation O2), page by page, and the nine encodings of the
table (obligation O4). -/

namespace Sys2Proof

/-! ### What some bytes decode to is encoded by them -/

/-- If `d`, read from `rest` after the bytes `pre`, is an instruction, then it is well formed, and `pre` and `rest` are
its encoding and the bytes `d` left. -/
def Decoded.Reads (pre rest : List Byte) (d : Decoded) : Prop :=
  ∀ i left, d = .ok (i, left) → WellFormed i = true ∧ pre ++ rest = encode i ++ left

theorem reads_error (pre rest : List Byte) (why : DecodeError) : Decoded.Reads pre rest (.error why) := nofun

theorem reads_done {pre rest : List Byte} {i : Instr} (hwf : WellFormed i = true) (henc : encode i = pre) :
    (done i rest).Reads pre rest := by
  rintro _ _ ⟨⟩
  exact ⟨hwf, by rw [henc]⟩

theorem reads_withByte {pre rest : List Byte} {f : Byte → Instr} (hwf : ∀ n, WellFormed (f n) = true)
    (henc : ∀ n, encode (f n) = pre ++ [n]) : (withByte f rest).Reads pre rest := by
  match rest with
  | [] => exact reads_error _ _ _
  | n :: rest =>
    rintro _ _ ⟨⟩
    exact ⟨hwf n, by simp [henc]⟩

theorem reads_withWord {pre rest : List Byte} {f : Word → Instr} (hwf : ∀ nn, WellFormed (f nn) = true)
    (henc : ∀ nn, encode (f nn) = pre ++ [loByte nn, hiByte nn]) : (withWord f rest).Reads pre rest := by
  match rest with
  | [] | [_] => exact reads_error _ _ _
  | l :: h :: rest =>
    rintro _ _ ⟨⟩
    exact ⟨hwf _, by simp [henc]⟩

theorem reads_withTwoBytes {pre rest : List Byte} {f : Byte → Byte → Instr} (hwf : ∀ d n, WellFormed (f d n) = true)
    (henc : ∀ d n, encode (f d n) = pre ++ [d, n]) : (withTwoBytes f rest).Reads pre rest := by
  match rest with
  | [] | [_] => exact reads_error _ _ _
  | d :: n :: rest =>
    rintro _ _ ⟨⟩
    exact ⟨hwf d n, by simp [henc]⟩

/-- A byte more read. -/
theorem Decoded.Reads.cons {pre rest : List Byte} {op : Byte} {d : Decoded} (h : d.Reads (pre ++ [op]) rest) :
    d.Reads pre (op :: rest) := fun i left hd => by simpa using h i left hd

/-! ### What a field selects (rule R123) -/

theorem code_cases (v : BitVec 3) : v = 0 ∨ v = 1 ∨ v = 2 ∨ v = 3 ∨ v = 4 ∨ v = 5 ∨ v = 6 ∨ v = 7 := by
  revert v; decide

theorem reads_byR8 {pre rest : List Byte} {v : BitVec 3} {onReg : R8 → Decoded} {onSix : Decoded}
    (hreg : ∀ r : R8, v = r.code → (onReg r).Reads pre rest) (hsix : v = 6#3 → onSix.Reads pre rest) :
    (byR8 v onReg onSix).Reads pre rest := by
  rcases code_cases v with rfl | rfl | rfl | rfl | rfl | rfl | rfl | rfl
  exacts [hreg .b rfl, hreg .c rfl, hreg .d rfl, hreg .e rfl, hreg .h rfl, hreg .l rfl, hsix rfl, hreg .a rfl]

@[simp] theorem RR.code_ofCode (v : BitVec 2) : (RR.ofCode v).code = v := by revert v; decide
@[simp] theorem QQ.code_ofCode (v : BitVec 2) : (QQ.ofCode v).code = v := by revert v; decide
@[simp] theorem PPX.code_ofCode (v : BitVec 2) : (PPX.ofCode v).code = v := by revert v; decide
@[simp] theorem PPY.code_ofCode (v : BitVec 2) : (PPY.ofCode v).code = v := by revert v; decide
@[simp] theorem Cond.code_ofCode (v : BitVec 3) : (Cond.ofCode v).code = v := by revert v; decide

theorem isRestartTarget_restartTarget (f : BitVec 3) : isRestartTarget (restartTarget f) = true := by
  revert f; decide

theorem restartField_restartTarget (f : BitVec 3) : restartField (restartTarget f) = f := by
  revert f; decide

/-- What is picked is one of the eight, by the value of the field. -/
theorem aluPick_cases {α : Type} {P : α → Prop} {y : BitVec 3} {add adc sub sbc and xor or cp : α}
    (hadd : y = 0 → P add) (hadc : y = 1 → P adc) (hsub : y = 2 → P sub) (hsbc : y = 3 → P sbc) (hand : y = 4 → P and)
    (hxor : y = 5 → P xor) (hor : y = 6 → P or) (hcp : y = 7 → P cp) : P (aluPick y add adc sub sbc and xor or cp) := by
  rcases code_cases y with rfl | rfl | rfl | rfl | rfl | rfl | rfl | rfl
  exacts [hadd rfl, hadc rfl, hsub rfl, hsbc rfl, hand rfl, hxor rfl, hor rfl, hcp rfl]

theorem rotPick_cases {P : Decoded → Prop} {y : BitVec 3} {unlisted rlc rrc rl rr sla sra srl : Decoded}
    (hunlisted : P unlisted) (hrlc : y = 0 → P rlc) (hrrc : y = 1 → P rrc) (hrl : y = 2 → P rl) (hrr : y = 3 → P rr)
    (hsla : y = 4 → P sla) (hsra : y = 5 → P sra) (hsrl : y = 7 → P srl) :
    P (rotPick y unlisted rlc rrc rl rr sla sra srl) := by
  rcases code_cases y with rfl | rfl | rfl | rfl | rfl | rfl | rfl | rfl
  exacts [hrlc rfl, hrrc rfl, hrl rfl, hrr rfl, hsla rfl, hsra rfl, hunlisted, hsrl rfl]

/-! ### The opcode byte from its groups (rule R122) -/

theorem eq_opByte {op : Byte} {x : BitVec 2} {y z : BitVec 3} (hx : (opX op).toNat = x.toNat) (hy : opY op = y)
    (hz : opZ op = z) : op = opByte x y z := by
  obtain rfl := BitVec.eq_of_toNat_eq hx
  subst hy hz
  revert op; decide

/-- The opcode byte whose pair field is bits 5:4. -/
theorem eq_pairByte {op : Byte} {x : BitVec 2} {q : BitVec 4} (hx : (opX op).toNat = x.toNat)
    (hq : op.toNat % 16 = q.toNat) : op = pairByte x (opP op) q := by
  obtain rfl := BitVec.eq_of_toNat_eq hx
  obtain rfl : op.extractLsb' 0 4 = q := BitVec.eq_of_toNat_eq (by simpa using hq)
  revert op; decide

theorem eq_ofNat_of_toNat_eq {w n : Nat} {v : BitVec w} (h : v.toNat = n) : v = BitVec.ofNat w n := by
  rw [← h, BitVec.ofNat_toNat, BitVec.setWidth_eq]

/-- The opcode byte from its groups as numbers, as the pages match on them. -/
theorem eq_ofNat_groups {op : Byte} {x y z : Nat} (hx : (opX op).toNat = x) (hy : (opY op).toNat = y)
    (hz : (opZ op).toNat = z) : op = BitVec.ofNat 8 (64 * x + 8 * y + z) := by
  subst hx hy hz
  exact eq_ofNat_of_toNat_eq (toNat_eq_groups op)

theorem eq_three_of_lt {x : Nat} (hlt : x < 4) (h0 : x ≠ 0) (h1 : x ≠ 1) (h2 : x ≠ 2) : x = 3 := by omega

/-- A pair field leaves bit 3 of its opcode byte 0, so bits 5:3 are even. -/
theorem mod_sixteen_of_even_group {y z : Nat} (hz : z < 8) (hy : y < 8) (h1 : y ≠ 1) (h3 : y ≠ 3) (h5 : y ≠ 5)
    (h7 : y ≠ 7) : (64 * 3 + 8 * y + z) % 16 = z := by omega

/-! ### The pages: an entry is found by the groups of the opcode byte, which its encoding writes back -/

theorem reads_decodeCB (op : Byte) (rest : List Byte) : (decodeCB op rest).Reads [0xCB, op] rest := by
  have hcb {x : BitVec 2} {z : BitVec 3} (hx : (opX op).toNat = x.toNat) (hz : opZ op = z) :
      [0xCB, opByte x (opY op) z] = [0xCB, op] := congrArg ([0xCB, ·]) (eq_opByte hx rfl hz).symm
  have hxlt := (opX op).isLt
  unfold decodeCB
  generalize hx : (opX op).toNat = x at hxlt ⊢
  split
  case h_1 =>
    refine reads_byR8 (fun r hz => rotPick_cases (reads_error _ _ _) ?_ ?_ ?_ ?_ ?_ ?_ ?_)
      (fun hz => rotPick_cases (reads_error _ _ _) ?_ ?_ ?_ ?_ ?_ ?_ ?_)
    all_goals
      intro hy
      obtain rfl := eq_opByte (x := 0) hx hy hz
      exact reads_done rfl rfl
  case h_2 =>
    exact reads_byR8 (fun r hz => reads_done rfl (hcb (x := 1) hx hz)) (fun hz => reads_done rfl (hcb (x := 1) hx hz))
  case h_3 =>
    exact reads_byR8 (fun r hz => reads_done rfl (hcb (x := 2) hx hz)) (fun hz => reads_done rfl (hcb (x := 2) hx hz))
  case h_4 h0 h1 h2 =>
    have h3 := hx.trans (eq_three_of_lt hxlt h0 h1 h2)
    exact reads_byR8 (fun r hz => reads_done rfl (hcb (x := 3) h3 hz)) (fun hz => reads_done rfl (hcb (x := 3) h3 hz))

/-- The arms named have a register or a pair field; every other listed opcode byte is one instruction. -/
theorem reads_decodeED (op : Byte) (rest : List Byte) : (decodeED op rest).Reads [0xED, op] rest := by
  have hpair {q : BitVec 4} (hx : (opX op).toNat = 1) (hq : op.toNat % 16 = q.toNat) :
      [0xED, pairByte 1 (RR.ofCode (opP op)).code q] = [0xED, op] := by
    rw [RR.code_ofCode, ← eq_pairByte (x := 1) hx hq]
  have hgroups := toNat_eq_groups op
  unfold decodeED
  generalize hx : (opX op).toNat = x, hz : (opZ op).toNat = z, hy : (opY op).toNat = y at hgroups ⊢
  split
  case h_1 | h_2 =>
    refine reads_byR8 (fun r hr => ?_) (fun _ => reads_error _ _ _)
    obtain rfl := eq_opByte (x := 1) hx hr (eq_ofNat_of_toNat_eq hz)
    exact reads_done rfl rfl
  case h_3 =>
    split
    · exact reads_done rfl (hpair (q := 2) hx (by show _ = 2; omega))
    · exact reads_done rfl (hpair (q := 0xA) hx (by show _ = 10; omega))
  case h_4 =>
    split
    · exact reads_withWord (fun _ => rfl) fun nn => congrArg (· ++ [loByte nn, hiByte nn])
        (hpair (q := 3) hx (by show _ = 3; omega))
    · exact reads_withWord (fun _ => rfl) fun nn => congrArg (· ++ [loByte nn, hiByte nn])
        (hpair (q := 0xB) hx (by show _ = 11; omega))
  case h_33 => exact reads_error _ _ _
  all_goals
    obtain rfl := eq_ofNat_groups hx hy hz
    exact reads_done rfl rfl

theorem reads_decodeIndexBit (xy : XY) (d op : Byte) (rest : List Byte) :
    (decodeIndexBit xy d op rest).Reads [xy.prefixByte, 0xCB, d, op] rest := by
  have hbit {x : BitVec 2} (hx : (opX op).toNat = x.toNat) (hz : (opZ op).toNat = 6) :
      [xy.prefixByte, 0xCB, d, opByte x (opY op) 6] = [xy.prefixByte, 0xCB, d, op] := by
    rw [← eq_opByte (z := 6) hx rfl (eq_ofNat_of_toNat_eq hz)]
  unfold decodeIndexBit
  generalize hx : (opX op).toNat = x, hz : (opZ op).toNat = z
  split
  case h_1 =>
    refine rotPick_cases (reads_error _ _ _) ?_ ?_ ?_ ?_ ?_ ?_ ?_
    all_goals
      intro hy
      obtain rfl := eq_opByte (x := 0) hx hy (eq_ofNat_of_toNat_eq hz)
      cases xy <;> exact reads_done rfl rfl
  case h_2 => cases xy <;> exact reads_done rfl (hbit (x := 1) hx hz)
  case h_3 => cases xy <;> exact reads_done rfl (hbit (x := 2) hx hz)
  case h_4 => cases xy <;> exact reads_done rfl (hbit (x := 3) hx hz)
  case h_5 => exact reads_error _ _ _

/-- The arms named have a register, a pair or an operation field; every other listed opcode byte is one instruction. -/
theorem reads_decodeIndex (xy : XY) (op : Byte) (rest : List Byte) :
    (decodeIndex xy op rest).Reads [xy.prefixByte, op] rest := by
  have hpair (hx : (opX op).toNat = 0) (hq : op.toNat % 16 = 9) :
      [xy.prefixByte, pairByte 0 (opP op) 9] = [xy.prefixByte, op] := by
    rw [← eq_pairByte (x := 0) (q := 9) hx hq]
  have hgroups := toNat_eq_groups op
  unfold decodeIndex
  generalize hx : (opX op).toNat = x, hy : (opY op).toNat = y, hz : (opZ op).toNat = z at hgroups ⊢
  split
  case h_2 =>
    split
    · exact reads_error _ _ _
    · have hop := hpair hx (by omega)
      cases xy
      · exact reads_done rfl (hop ▸ congrArg (fun p => [0xDD, pairByte 0 p 9]) (PPX.code_ofCode (opP op)))
      · exact reads_done rfl (hop ▸ congrArg (fun p => [0xFD, pairByte 0 p 9]) (PPY.code_ofCode (opP op)))
  case h_10 =>
    refine reads_byR8 (fun r hr => ?_) (fun _ => reads_error _ _ _)
    obtain rfl := eq_opByte (x := 1) hx (eq_ofNat_of_toNat_eq hy) hr
    cases xy <;> exact reads_withByte (fun _ => rfl) fun _ => rfl
  case h_11 =>
    refine reads_byR8 (fun r hr => ?_) (fun _ => reads_error _ _ _)
    obtain rfl := eq_opByte (x := 1) hx hr (eq_ofNat_of_toNat_eq hz)
    cases xy <;> exact reads_withByte (fun _ => rfl) fun _ => rfl
  case h_12 =>
    cases xy
    all_goals
      refine aluPick_cases (P := fun f => (withByte f rest).Reads _ rest) ?_ ?_ ?_ ?_ ?_ ?_ ?_ ?_
      all_goals
        intro hf
        obtain rfl := eq_opByte (x := 2) hx hf (eq_ofNat_of_toNat_eq hz)
        exact reads_withByte (fun _ => rfl) fun _ => rfl
  case h_18 => exact reads_error _ _ _
  all_goals obtain rfl := eq_ofNat_groups hx hy hz
  case h_1 | h_3 | h_4 => cases xy <;> exact reads_withWord (fun _ => rfl) fun _ => rfl
  case h_7 | h_8 => cases xy <;> exact reads_withByte (fun _ => rfl) fun _ => rfl
  case h_9 => cases xy <;> exact reads_withTwoBytes (fun _ _ => rfl) fun _ _ => rfl
  all_goals cases xy <;> exact reads_done rfl rfl

theorem reads_decodeAfter {pre : List Byte} {page : Byte → List Byte → Decoded}
    (h : ∀ op rest, (page op rest).Reads (pre ++ [op]) rest) (bs : List Byte) : (decodeAfter page bs).Reads pre bs := by
  match bs with
  | [] => exact reads_error _ _ _
  | op :: rest => exact (h op rest).cons

theorem reads_decodeAfterXY (xy : XY) (bs : List Byte) : (decodeAfterXY xy bs).Reads [xy.prefixByte] bs := by
  unfold decodeAfterXY
  split
  · exact reads_error _ _ _
  · split
    next hcb =>
      subst hcb
      split
      · exact (reads_decodeIndexBit xy _ _ _).cons.cons.cons
      · exact reads_error _ _ _
    · exact (reads_decodeIndex xy _ _).cons

/-- The arms named have a register or a pair field; every other opcode byte below 40H is one instruction. -/
theorem reads_decodeMain0 {op : Byte} (hx : (opX op).toNat = 0) (rest : List Byte) :
    (decodeMain0 op rest).Reads [op] rest := by
  have hpair {q : BitVec 4} (hq : op.toNat % 16 = q.toNat) : [pairByte 0 (RR.ofCode (opP op)).code q] = [op] := by
    rw [RR.code_ofCode, ← eq_pairByte (x := 0) hx hq]
  have hgroups := toNat_eq_groups op
  unfold decodeMain0
  generalize hz : (opZ op).toNat = z, hy : (opY op).toNat = y at hgroups ⊢
  split
  case h_9 =>
    split
    · exact reads_withWord (fun _ => rfl) fun nn => congrArg (· ++ [loByte nn, hiByte nn])
        (hpair (q := 1) (by show _ = 1; omega))
    · exact reads_done rfl (hpair (q := 9) (by show _ = 9; omega))
  case h_18 =>
    split
    · exact reads_done rfl (hpair (q := 3) (by show _ = 3; omega))
    · exact reads_done rfl (hpair (q := 0xB) (by show _ = 11; omega))
  case h_19 | h_20 =>
    refine reads_byR8 (fun r hr => ?_) (fun hr => ?_)
    all_goals
      obtain rfl := eq_opByte (x := 0) hx hr (eq_ofNat_of_toNat_eq hz)
      exact reads_done rfl rfl
  case h_21 =>
    refine reads_byR8 (fun r hr => ?_) (fun hr => ?_)
    all_goals
      obtain rfl := eq_opByte (x := 0) hx hr (eq_ofNat_of_toNat_eq hz)
      exact reads_withByte (fun _ => rfl) fun _ => rfl
  case h_30 => exact reads_error _ _ _
  all_goals obtain rfl := eq_ofNat_groups hx hy hz
  case h_3 | h_4 | h_5 | h_6 | h_7 | h_8 => exact reads_withByte (fun _ => rfl) fun _ => rfl
  case h_14 | h_15 | h_16 | h_17 => exact reads_withWord (fun _ => rfl) fun _ => rfl
  all_goals exact reads_done rfl rfl

theorem reads_decodeMain1 {op : Byte} (hx : (opX op).toNat = 1) (rest : List Byte) :
    (decodeMain1 op rest).Reads [op] rest := by
  refine reads_byR8 (fun r hy => reads_byR8 (fun s hz => ?_) fun hz => ?_)
    fun hy => reads_byR8 (fun s hz => ?_) fun hz => ?_
  all_goals
    obtain rfl := eq_opByte (x := 1) hx hy hz
    exact reads_done rfl rfl

theorem reads_decodeMain2 {op : Byte} (hx : (opX op).toNat = 2) (rest : List Byte) :
    (decodeMain2 op rest).Reads [op] rest := by
  refine reads_byR8
    (fun r hz => aluPick_cases (P := fun i => (done i rest).Reads [op] rest) ?_ ?_ ?_ ?_ ?_ ?_ ?_ ?_)
    fun hz => aluPick_cases (P := fun i => (done i rest).Reads [op] rest) ?_ ?_ ?_ ?_ ?_ ?_ ?_ ?_
  all_goals
    intro hy
    obtain rfl := eq_opByte (x := 2) hx hy hz
    exact reads_done rfl rfl

/-- The arms named are the prefixes and those with a condition, a pair, an operation or a restart field; every other
opcode byte from C0H on is one instruction. -/
theorem reads_decodeMain3 {op : Byte} (hx : (opX op).toNat = 3) (rest : List Byte) :
    (decodeMain3 op rest).Reads [op] rest := by
  have hcond {z : BitVec 3} (hz : (opZ op).toNat = z.toNat) : [opByte 3 (Cond.ofCode (opY op)).code z] = [op] := by
    rw [Cond.code_ofCode, ← eq_opByte (x := 3) hx rfl (BitVec.eq_of_toNat_eq hz)]
  have hpair {q : BitVec 4} (hq : op.toNat % 16 = q.toNat) : [pairByte 3 (QQ.ofCode (opP op)).code q] = [op] := by
    rw [QQ.code_ofCode, ← eq_pairByte (x := 3) hx hq]
  have hgroups := toNat_eq_groups op
  rw [hx] at hgroups
  have hylt := (opY op).isLt
  unfold decodeMain3
  generalize hz : (opZ op).toNat = z, hy : (opY op).toNat = y at hgroups hylt ⊢
  split
  case h_1 => exact reads_done rfl (hcond (z := 0) hz)
  case h_7 => exact reads_withWord (fun _ => rfl) fun nn => congrArg (· ++ [loByte nn, hiByte nn]) (hcond (z := 2) hz)
  case h_16 => exact reads_withWord (fun _ => rfl) fun nn => congrArg (· ++ [loByte nn, hiByte nn]) (hcond (z := 4) hz)
  case h_6 h1 h3 h5 h7 =>
    exact reads_done rfl (hpair (q := 1) (hgroups ▸ mod_sixteen_of_even_group (z := 1) (by decide) hylt h1 h3 h5 h7))
  case h_21 h1 h3 h5 h7 =>
    exact reads_done rfl (hpair (q := 5) (hgroups ▸ mod_sixteen_of_even_group (z := 5) (by decide) hylt h1 h3 h5 h7))
  case h_22 =>
    refine aluPick_cases (P := fun f => (withByte f rest).Reads [op] rest) ?_ ?_ ?_ ?_ ?_ ?_ ?_ ?_
    all_goals
      intro hf
      obtain rfl := eq_opByte (x := 3) hx hf (eq_ofNat_of_toNat_eq hz)
      exact reads_withByte (fun _ => rfl) fun _ => rfl
  case h_23 =>
    refine reads_done (isRestartTarget_restartTarget _) ?_
    show [opByte 3 (restartField (restartTarget (opY op))) 7] = [op]
    rw [restartField_restartTarget, ← eq_opByte (x := 3) (z := 7) hx rfl (eq_ofNat_of_toNat_eq hz)]
  case h_24 => exact reads_error _ _ _
  all_goals obtain rfl := eq_ofNat_groups hx hy hz
  case h_9 => exact reads_decodeAfter reads_decodeCB rest
  case h_19 => exact reads_decodeAfter reads_decodeED rest
  case h_18 => exact reads_decodeAfterXY .ix rest
  case h_20 => exact reads_decodeAfterXY .iy rest
  case h_10 | h_11 => exact reads_withByte (fun _ => rfl) fun _ => rfl
  case h_8 | h_17 => exact reads_withWord (fun _ => rfl) fun _ => rfl
  all_goals exact reads_done rfl rfl

theorem reads_decodeMain (op : Byte) (rest : List Byte) : (decodeMain op rest).Reads [op] rest := by
  have hxlt := (opX op).isLt
  unfold decodeMain
  generalize hx : (opX op).toNat = x at hxlt ⊢
  split
  case h_1 => exact reads_decodeMain0 hx rest
  case h_2 => exact reads_decodeMain1 hx rest
  case h_3 => exact reads_decodeMain2 hx rest
  case h_4 h0 h1 h2 => exact reads_decodeMain3 (hx.trans (eq_three_of_lt hxlt h0 h1 h2)) rest

/-- Settles O2: the opcode byte read is the one its encoding writes, page by page. -/
theorem decodedBytesAreTheEncoding : Obligations.DecodedBytesAreTheEncoding := by
  intro bs i rest h
  match bs with
  | [] => cases h
  | op :: bs => exact reads_decodeMain op bs i rest h

/-- Settles O4: the decoder, evaluated on each of the nine. -/
theorem encodingsOfTheTable : Obligations.EncodingsOfTheTable := ⟨rfl, rfl, rfl, rfl, rfl, rfl, rfl, rfl, rfl⟩

end Sys2Proof
